-- ==== Sys2Proof/Word.lean ====
section
/-! DEFINITION. The words of the TF6448: the byte of the host window and of frame bodies, the badge number and the 7-bit line address. -/

namespace Sys2Proof

/-- A byte of the host window, a frame body or a receipt (R166, R127, R182). -/
abbrev Byte := BitVec 8

/-- A badge number as frames and host arguments carry it: two bytes (R30, R182). The numbers 0 and 65535 are no badges (R31). -/
abbrev Badge := BitVec 16

/-- An address on the bay line: seven bits (R127). -/
abbrev Addr := BitVec 7

end Sys2Proof
end

