-- ==== Sys2Proof/Syntax.lean ====
section
/-! DEFINITION. The commands of the TF6448: one constructor of Instr for each row of spec/opcode_table.json, and the types of their operands. -/

namespace Sys2Proof

/-- The four trades (00_scope section 5; codes in R182). -/
inductive Trade where
  | electrical | mechanical | hydraulic | crane
  deriving DecidableEq, Repr

/-- The classes of a call, in rising order (00_scope section 5). -/
inductive CallClass where
  | routine | urgent | stop
  deriving DecidableEq, Repr

/-- A call slot, 0–63 (R1). -/
abbrev CallSlotNo := Fin 64

/-- A crew slot, 0–47 (R30). -/
abbrev CrewSlotNo := Fin 48

/-- A zone: value z stands for zone z + 1 of the manual, 1–16 (R52). "No zone" is an absent Option. -/
abbrev Zone := Fin 16

/-- A call point: value p stands for the address 16 + p, 16–111 (R52). -/
abbrev Point := Fin 96

/-- A host window buffer location, 0x00–0x17 (R166). -/
abbrev BufferLoc := Fin 24

/-- The destinations with which a frame can be handed over: the head station (1) or all beacons (0) (R135). -/
inductive Destination where
  | head | allBeacons
  deriving DecidableEq, Repr

/-- The fields of a bay line frame as they stand on the line (R127), the check byte included. -/
structure Frame where
  classCode : BitVec 2
  kindCode : BitVec 4
  receiptWanted : Bool
  source : Addr
  dest : Addr
  length : BitVec 4
  body : List Byte
  check : Byte
  deriving DecidableEq, Repr

/-- A frame of another node as the receiver reads it: its fields, and whether a cell broke the framing bounds
before the end of the check byte (R134). -/
structure HeardFrame where
  frame : Frame
  framingError : Bool
  deriving DecidableEq, Repr

/-- A receipt as the TF6448 reads it in its receipt window (R133): the code byte, the data byte (read only when bit 7 of
the code is set, R182), the check byte, and whether its cells broke the framing bounds of R134. -/
structure HeardReceipt where
  code : Byte
  data : Byte
  check : Byte
  framingError : Bool
  deriving DecidableEq, Repr

/-- The two kinds of echo mismatch (R132). -/
inductive MismatchKind where
  | overdriven | underdriven
  deriving DecidableEq, Repr

/-- An echo mismatch in a frame the TF6448 drives: its kind, and whether it falls in the arbitration field (R131, R132). -/
structure Mismatch where
  kind : MismatchKind
  inArbitrationField : Bool
  deriving DecidableEq, Repr

/-- The two ends of a power-on (R176): from the first the internal detector holds the part in cold reset, at the second the
cold reset ends, with the reset line low or released. -/
inductive PowerPhase where
  | detectorHolds
  | ends (resetLow : Bool)
  deriving DecidableEq, Repr

/-- The events of a tick (R104): the divider makes the tick, and the tick reaches each owner as an event of its own; `whole`
is a tick made and taken at every owner with nothing between (log 5). -/
inductive TickPart where
  | whole
  | divider
  | timer (slot : CallSlotNo)
  | sighting (crew : CrewSlotNo)
  | autoClose
  | minuteCount
  deriving DecidableEq, Repr

/-- The events of a minute at its owners (R105); `whole` is a minute taken at every owner with nothing between (log 5). -/
inductive MinutePart where
  | whole
  | age (slot : CallSlotNo)
  | idle (crew : CrewSlotNo)
  deriving DecidableEq, Repr

/-- The commands of the block, one constructor for each row of the table. A frame's operands are its source and its
body, as it is handed over (R135); a host command has none, because it reads its arguments from the buffer at its
completion (R168). -/
inductive Instr where
  /-- RAISE (R145): a RAISE frame handed over from a point. -/
  | raise (source : Point) (body : List Byte)
  /-- CANCEL (R146): a CANCEL frame handed over from a point. -/
  | cancel (source : Point) (body : List Byte)
  /-- POINT_HELLO (R147): a POINT HELLO frame handed over from a point. -/
  | pointHello (source : Point) (dest : Destination) (body : List Byte)
  /-- KEY (R149): a KEY frame handed over from the beacon of a zone. -/
  | key (source : Zone) (body : List Byte)
  /-- SIGHT (R148): a SIGHT frame handed over from the beacon of a zone. -/
  | sight (source : Zone) (dest : Destination) (body : List Byte)
  /-- BEACON_HELLO (R150): a BEACON HELLO frame handed over from the beacon of a zone. -/
  | beaconHello (source : Zone) (dest : Destination) (body : List Byte)
  /-- RECEPTION_ERROR (R135): a frame of another node that fails the line checks or is ignored. -/
  | receptionError (heard : HeardFrame)
  /-- HOST_RAISE (R27). -/
  | hostRaise
  /-- READ_CALL (R25). -/
  | readCall
  /-- FIND_CALLS (R26). -/
  | findCalls
  /-- HOLD (R19). -/
  | hold
  /-- RESUME (R20). -/
  | resume
  /-- CLOSE_CALL (R16). -/
  | closeCall
  /-- RETIRE (R17). -/
  | retire
  /-- ASSIGN (R92). -/
  | assign
  /-- ESCALATE (R93). -/
  | escalate
  /-- REPAGE (R94). -/
  | repage
  /-- ENROL (R33). -/
  | enrol
  /-- AMEND (R34). -/
  | amend
  /-- REMOVE_CREW (R35). -/
  | removeCrew
  /-- READ_CREW (R36). -/
  | readCrew
  /-- SET_DUTY (R38). -/
  | setDuty
  /-- STAGE_DUTY (R42). -/
  | stageDuty
  /-- SHIFT_CUT (R158). -/
  | shiftCut
  /-- SHIFT_CUT_STEP (R160). -/
  | shiftCutStep
  /-- PLAN_WRITE (R62). -/
  | planWrite
  /-- PLAN_READ (R65). -/
  | planRead
  /-- PLAN_CLOSE (R66). -/
  | planClose
  /-- SILENCE_HORN (R96). -/
  | silenceHorn
  /-- LINE_STATE (R174). -/
  | lineState
  /-- UNKNOWN_COMMAND (R168). -/
  | unknownCommand
  /-- BUFFER_WRITE (R169). -/
  | bufferWrite (loc : BufferLoc) (value : Byte)
  /-- STATUS_READ (R167). -/
  | statusRead
  /-- NOTICE_TAKE (R172). -/
  | noticeTake
  /-- NOTICE_MASK_WRITE (R173). -/
  | noticeMaskWrite (value : Byte)
  /-- IGNORED_WRITE (R166): a write to one of the locations 0x19–0x1E. -/
  | ignoredWrite (loc : BitVec 5) (value : Byte)
  /-- POWER_ON (R176): the beginning of the cold reset, or its end, which leaves the power-on values. -/
  | powerOn (phase : PowerPhase)
  /-- RESET_LINE_ASSERTION (R177). -/
  | resetLineAssertion
  /-- WARM_RESTART (R178): the release of the reset line. -/
  | warmRestart
  /-- TICK (R104). A tick named without a part is a whole one. -/
  | tick (part : TickPart := .whole)
  /-- MINUTE (R105). A minute named without a part is a whole one. -/
  | minute (part : MinutePart := .whole)
  /-- OFFER_EXPIRY (R85). -/
  | offerExpiry (slot : CallSlotNo)
  /-- TRAVEL_EXPIRY (R86). -/
  | travelExpiry (slot : CallSlotNo)
  /-- RETRY_EXPIRY (R88). -/
  | retryExpiry (slot : CallSlotNo)
  /-- AUTO_CLOSE (R68). -/
  | autoClose
  /-- DISPATCH_TURN (R70). -/
  | dispatchTurn
  /-- LINE_IDLE (R126). -/
  | lineIdle
  /-- FRAME_SEND_START (R130). -/
  | frameSendStart
  /-- ARBITRATION_LOSS (R131). -/
  | arbitrationLoss (mismatch : Mismatch)
  /-- BIT_FAULT (R132). -/
  | bitFault (mismatch : Mismatch)
  /-- FRAME_SENT (R133): the last cell of the check byte of the TF6448's own frame has been driven. -/
  | frameSent
  /-- RECEIPT_TAKEN (R133). -/
  | receiptTaken (receipt : HeardReceipt)
  /-- NO_RECEIPT (R133). -/
  | noReceipt
  /-- RECEIPT_ECHO_MISMATCH (R136). -/
  | receiptEchoMismatch
  /-- LINE_HOLD (R137). -/
  | lineHold
  /-- LINE_HOLD_REPEAT (R138). -/
  | lineHoldRepeat
  /-- LINE_STUCK (R138). -/
  | lineStuck
  /-- LINE_CLEAR (R138). -/
  | lineClear
  /-- DOMINANT_EDGE (R129). -/
  | dominantEdge
  /-- COMMAND_TAKEN (R168): a write to location 0x18. -/
  | commandTaken (value : Byte)
  deriving DecidableEq, Repr

end Sys2Proof
end

