-- ==== Sys2Proof/Decode.lean ====
section
/-! DEFINITION. The table's words: no row of spec/opcode_table.json gives bits, so no word spells a command. -/

namespace Sys2Proof

/-- The command that a word spells by the table's bits. The rows of the table give no bits (98_reader.md:
"n_rows_with_fixed" 0), so there is none. The commands' own codes and frames are read where the part reads
them: the command code at location 0x18 (R168) and the frames of the bay line (Machine/Frames.lean). -/
def decodeTableWord (_nbits _w : Nat) : Option Instr := none

end Sys2Proof
end

