-- ==== Sys2Proof/Config.lean ====
section
/-! DEFINITION. The numbers the data book fixes. The manual leaves no value of a result open, so there is no free value here. -/

namespace Sys2Proof.Config

/-- The Send Queue holds at most 24 entries (R112). -/
def queueLimit : Nat := 24

/-- An offer history holds at most eight entries (R2). -/
def historyLimit : Nat := 8

/-- An ALL rung offers to at most four crews (R74). -/
def allRungCrews : Nat := 4

/-- The automatic queue thresholds, low 8 and high 18 (R120). -/
def autoThresholdLow : Nat := 8
def autoThresholdHigh : Nat := 18

/-- The auto-close count loaded at the release of the reset line (R61). -/
def autoCloseSeconds : Nat := 60

/-- The minute count goes from 0 to 59 (R105). -/
def ticksPerMinute : Nat := 60

/-- The low eight coefficients of the generator polynomial, 0xD5, and the starting value of the register (R128). -/
def crcPolynomial : Byte := 0xD5
def crcStart : Byte := 0xFF

/-- The head station's address (R127). -/
def headAddress : Addr := 1

/-- The address that means all beacons (R127). -/
def allBeaconsAddress : Addr := 0

/-- The highest crew load (R44), and the upper limits of the saturating counts (R1, R7, R11, R30, R140). -/
def raiseCountLimit : Nat := 15
def unclaimedRoundsLimit : Nat := 15
def ageLimit : Nat := 255
def sightAgeLimit : Nat := 255
def idleLimit : Nat := 255
def refusalCountLimit : Nat := 255
def errorCountLimit : Nat := 255

end Sys2Proof.Config
end

