-- ==== Sys2Proof/Machine/Frames.lean ====
section
/-! DEFINITION. Bay line frames and receipts: codes (R127, R182), bits in the order sent, the check byte (R128), the line checks of a heard frame (R134, R135), and the frames that carry each field command. -/

namespace Sys2Proof

/-- The nine frame kinds (R127). -/
inductive FrameKind where
  | key | raise | cancel | sight | pointHello | beaconHello | page | withdraw | lamp
  deriving DecidableEq, Repr

/-- The kind codes of R182. -/
def FrameKind.code : FrameKind → BitVec 4
  | .key => 1
  | .raise => 2
  | .cancel => 3
  | .sight => 4
  | .pointHello => 5
  | .beaconHello => 6
  | .page => 8
  | .withdraw => 9
  | .lamp => 10

/-- Codes 0, 7 and 11–15 name no kind (R182). -/
def FrameKind.ofCode (c : BitVec 4) : Option FrameKind :=
  match c.toNat with
  | 1 => some .key
  | 2 => some .raise
  | 3 => some .cancel
  | 4 => some .sight
  | 5 => some .pointHello
  | 6 => some .beaconHello
  | 8 => some .page
  | 9 => some .withdraw
  | 10 => some .lamp
  | _ => none

/-- The class field of a frame header: STOP 0, URGENT 1, ROUTINE 2 (R127). -/
def CallClass.headerCode : CallClass → BitVec 2
  | .stop => 0
  | .urgent => 1
  | .routine => 2

/-- The address of a point: 16–111 (R52). -/
def Point.addr (p : Point) : Addr := BitVec.ofNat 7 (16 + p.val)

/-- The address of a zone's beacon: 111 + zone, 112–127 (R46). -/
def Zone.beacon (z : Zone) : Addr := BitVec.ofNat 7 (112 + z.val)

/-- The point at an address 16–111. -/
def Point.ofAddr (a : Addr) : Option Point :=
  if h : 16 ≤ a.toNat ∧ a.toNat < 112 then some ⟨a.toNat - 16, by omega⟩ else none

/-- The zone of a beacon address: the address less 111 (R46, chapter 8.3). -/
def Zone.ofBeacon (a : Addr) : Option Zone :=
  if h : 112 ≤ a.toNat then some ⟨a.toNat - 112, by have := a.isLt; omega⟩ else none

/-- The bits of a word, most significant bit first (R127). -/
def bitsOf {w : Nat} (x : BitVec w) : List Bool := (List.range w).map (fun i => x.getMsbD i)

/-- One step of the check computation: the register is shifted towards its most significant end, and the polynomial is
added in when the bit shifted out differs from the frame bit (R128). -/
def crcStep (reg : Byte) (bit : Bool) : Byte :=
  if reg.msb != bit then (reg <<< 1) ^^^ Config.crcPolynomial else reg <<< 1

/-- The check register after a run of bits (R128). -/
def crc (bits : List Bool) : Byte := bits.foldl crcStep Config.crcStart

/-- The 25 header bits and the body bits of a frame, in the order sent (R127, R182). -/
def Frame.bits (f : Frame) : List Bool :=
  bitsOf f.classCode ++ bitsOf f.kindCode ++ [f.receiptWanted] ++ bitsOf f.source ++ bitsOf f.dest ++
    bitsOf f.length ++ f.body.flatMap bitsOf

/-- The check byte that belongs to a frame's header and body (R128). -/
def Frame.checkByte (f : Frame) : Byte := crc f.bits

/-- A frame with its length and its check byte made from its body and header (R127, R128). -/
def Frame.make (cls : CallClass) (kind : FrameKind) (receiptWanted : Bool) (source dest : Addr) (body : List Byte) : Frame :=
  let f : Frame := { classCode := cls.headerCode, kindCode := kind.code, receiptWanted := receiptWanted, source := source,
                     dest := dest, length := BitVec.ofNat 4 body.length, body := body, check := 0 }
  { f with check := f.checkByte }

/-- The receipt-wanted bit that each kind fixes for a field node (R127): RAISE, CANCEL and KEY always, SIGHT and the
HELLO kinds never. The head station's kinds have none in a frame of another node. -/
def FrameKind.fieldReceipt : FrameKind → Option Bool
  | .raise | .cancel | .key => some true
  | .sight | .pointHello | .beaconHello => some false
  | .page | .withdraw | .lamp => none

/-- The source range of each kind in check 5 of R135: the kinds PAGE, WITHDRAW and LAMP have none in a frame of another node. -/
def FrameKind.sourceInRange (k : FrameKind) (a : Addr) : Bool :=
  match k with
  | .raise | .cancel | .pointHello => (Point.ofAddr a).isSome
  | .key | .sight | .beaconHello => (Zone.ofBeacon a).isSome
  | .page | .withdraw | .lamp => false

/-- What the checks of R135 make of a frame of another node. -/
inductive LineVerdict where
  | lengthError | framingError | checkError | ignored | formatError
  | handedOver (kind : FrameKind)
  deriving DecidableEq, Repr

/-- Check 5 of R135: the class code, the kind code, the receipt-wanted bit and the source agree with the kind, and a
frame to address 0 wants no receipt. -/
def Frame.format (f : Frame) : Option FrameKind :=
  match FrameKind.ofCode f.kindCode with
  | none => none
  | some k =>
    if f.classCode != 3 && k.fieldReceipt == some f.receiptWanted &&
        !(f.receiptWanted && f.dest == Config.allBeaconsAddress) && k.sourceInRange f.source
    then some k else none

/-- The ordered checks of R135. A frame whose body is not as long as its length field says is a frame whose cells did
not all come, which is a framing error (R134). -/
def HeardFrame.verdict (h : HeardFrame) : LineVerdict :=
  if 8 < h.frame.length.toNat then .lengthError
  else if h.framingError || h.frame.body.length != h.frame.length.toNat then .framingError
  else if h.frame.check != h.frame.checkByte then .checkError
  else if h.frame.dest != Config.headAddress && h.frame.dest != Config.allBeaconsAddress then .ignored
  else match h.frame.format with
    | none => .formatError
    | some k => .handedOver k

/-- A verdict that adds one to the receive-error count (R135, R140). -/
def LineVerdict.counted : LineVerdict → Bool
  | .lengthError | .framingError | .checkError | .formatError => true
  | .ignored | .handedOver _ => false

/-- A verdict after which the receiver waits for idle (R135, checks 1 and 2). -/
def LineVerdict.waitsForIdle : LineVerdict → Bool
  | .lengthError | .framingError => true
  | _ => false

/-- A verdict reached at check 4 or later: the check byte was correct, so the beacon-answering flag of a beacon source is
set (R135, R139). -/
def LineVerdict.checkPassed : LineVerdict → Bool
  | .ignored | .formatError | .handedOver _ => true
  | .lengthError | .framingError | .checkError => false

/-- The destination of a handed-over frame. -/
def Destination.ofAddr (a : Addr) : Destination := if a = Config.allBeaconsAddress then .allBeacons else .head

def Destination.addr : Destination → Addr
  | .head => Config.headAddress
  | .allBeacons => Config.allBeaconsAddress

/-- The command that a frame of another node is: a frame that passes the checks is handed over with its kind, source,
destination and body (R135), and any other frame is a reception error. -/
def HeardFrame.command (h : HeardFrame) : Instr :=
  match h.verdict with
  | .handedOver k =>
    match k, Point.ofAddr h.frame.source, Zone.ofBeacon h.frame.source with
    | .raise, some p, _ => .raise p h.frame.body
    | .cancel, some p, _ => .cancel p h.frame.body
    | .pointHello, some p, _ => .pointHello p (Destination.ofAddr h.frame.dest) h.frame.body
    | .key, _, some z => .key z h.frame.body
    | .sight, _, some z => .sight z (Destination.ofAddr h.frame.dest) h.frame.body
    | .beaconHello, _, some z => .beaconHello z (Destination.ofAddr h.frame.dest) h.frame.body
    | _, _, _ => .receptionError h
  | _ => .receptionError h

/-- The frame that carries a field command, sent with a class of its sender's choice (R127, R143). -/
def Instr.fieldFrame (cls : CallClass) : Instr → Option Frame
  | .raise p b => some (Frame.make cls .raise true p.addr Config.headAddress b)
  | .cancel p b => some (Frame.make cls .cancel true p.addr Config.headAddress b)
  | .pointHello p d b => some (Frame.make cls .pointHello false p.addr d.addr b)
  | .key z b => some (Frame.make cls .key true z.beacon Config.headAddress b)
  | .sight z d b => some (Frame.make cls .sight false z.beacon d.addr b)
  | .beaconHello z d b => some (Frame.make cls .beaconHello false z.beacon d.addr b)
  | .receptionError h => some h.frame
  | _ => none

/-- The receipts the TF6448 gives (R144). -/
inductive ReceiptCode where
  | new (tag : Byte) | merged (tag : Byte) | cancelled (count : Byte)
  | notReady | disabled | noLadder | full
  | granted | loaded | taken | notOffered | done | notHolder | unknownBadge | stale | badBody
  deriving DecidableEq, Repr

/-- The code byte, and the data byte of the codes whose bit 7 is set (R182). -/
def ReceiptCode.bytes : ReceiptCode → List Byte
  | .new t => [0x81, t]
  | .merged t => [0x82, t]
  | .cancelled n => [0x83, n]
  | .notReady => [0x01]
  | .disabled => [0x02]
  | .noLadder => [0x03]
  | .full => [0x04]
  | .granted => [0x10]
  | .loaded => [0x11]
  | .taken => [0x12]
  | .notOffered => [0x13]
  | .done => [0x14]
  | .notHolder => [0x15]
  | .unknownBadge => [0x16]
  | .stale => [0x17]
  | .badBody => [0x1F]

/-- A receipt as it is driven: its bytes and the check byte over them (R128, R136). -/
def ReceiptCode.driven (r : ReceiptCode) : List Byte := r.bytes ++ [crc (r.bytes.flatMap bitsOf)]

/-- The codes a beacon or a point answers with (R152, R182): RELAYED 0x20, NO ROOM 0x21, SHOWN 0x22. -/
def noRoomCode : Byte := 0x21

/-- The bytes of a heard receipt that its check byte covers: the data byte is there when bit 7 of the code is set (R182). -/
def HeardReceipt.covered (r : HeardReceipt) : List Byte := if r.code.msb then [r.code, r.data] else [r.code]

/-- A good receipt is one whose check byte is correct (R117, R133). -/
def HeardReceipt.good (r : HeardReceipt) : Bool :=
  !r.framingError && r.check == crc (r.covered.flatMap bitsOf)

end Sys2Proof
end

