-- ==== Sys2Proof/Machine/State.lean ====
section
/-! DEFINITION. The state of the TF6448, block by block as 00_scope section 3 draws it, its value after power-on, and the reasons a step can stop. -/

namespace Sys2Proof.Machine

/-! ## The Call Table -/

/-- A call's tag: slot + 64 × generation (R3). -/
structure Tag where
  generation : Fin 4
  slot : CallSlotNo
  deriving DecidableEq, Repr

/-- Where a call was raised: a point, or a desk 1–8 (value d stands for desk d + 1) (R1). -/
inductive Origin where
  | point (p : Point)
  | desk (d : Fin 8)
  deriving DecidableEq, Repr

/-- The states of a call other than FREE (R4); a FREE slot holds no record. -/
inductive CallState where
  | waiting | offered | accepted | attending | unclaimed | closed
  deriving DecidableEq, Repr

/-- How a past offer ended (R2). -/
inductive OfferOutcome where
  | declined | lapsed | loaded | withdrawn | handedBack | undelivered
  deriving DecidableEq, Repr

/-- One entry of an offer history (R1). -/
structure HistoryEntry where
  crew : CrewSlotNo
  outcome : OfferOutcome
  deriving DecidableEq, Repr

/-- The modes of a call timer (R98). -/
inductive TimerMode where
  | none | offer | travel | retry
  deriving DecidableEq, Repr

/-- A call timer: mode, count of seconds, pending-expiry mark (R98). -/
structure CallTimer where
  mode : TimerMode
  count : Nat
  expiryPending : Bool
  deriving DecidableEq, Repr

/-- Why a call is held (R18). -/
inductive HoldKind where
  | command | restart
  deriving DecidableEq, Repr

/-- Why a call closed (R14). -/
inductive CloseReason where
  | cleared | cancelled | closedByCommand
  deriving DecidableEq, Repr

/-- The record of a call (R1). The attention set is the byte of R182, one bit for each reason. -/
structure Call where
  state : CallState
  origin : Origin
  zone : Zone
  trade : Trade
  cls : CallClass
  raiseCount : Nat
  rung : Nat
  triesUsed : Nat
  offerees : List CrewSlotNo
  history : List HistoryEntry
  holder : Option CrewSlotNo
  timer : CallTimer
  hold : Option HoldKind
  unclaimedRounds : Nat
  age : Nat
  closeReason : Option CloseReason
  reported : Bool
  attention : BitVec 8
  deriving DecidableEq, Repr

/-- A call slot: its generation, and its record unless it is FREE (R1). -/
structure CallSlot where
  generation : Fin 4
  call : Option Call
  deriving DecidableEq, Repr

/-- The TABLE FULL latch (R11). -/
structure TableFullLatch where
  latched : Bool
  origin : Option Origin
  count : Nat
  deriving DecidableEq, Repr

/-- The Call Table (chapter 1). -/
structure CallTable where
  slots : Vector CallSlot 64
  attentionQueue : List CallSlotNo
  tableFull : TableFullLatch
  deriving DecidableEq, Repr

/-! ## The Crew Roster -/

/-- The grades, in rising order (R30, R56). -/
inductive Grade where
  | fitter | lead | supervisor
  deriving DecidableEq, Repr

inductive Duty where
  | off | on
  deriving DecidableEq, Repr

/-- The record of a crew (R30). The trades are the four bits of R182, bit n for trade n. -/
structure Crew where
  badge : Badge
  trades : BitVec 4
  grade : Grade
  home : Zone
  duty : Duty
  staged : Option Duty
  lastSeen : Option Zone
  sightAge : Nat
  load : Nat
  offer : Option Tag
  idle : Nat
  deriving DecidableEq, Repr

/-- The unknown-badge latch (R49). -/
structure UnknownBadgeLatch where
  latched : Bool
  badge : Option Badge
  overrun : Bool
  deriving DecidableEq, Repr

/-- The walk state; the next slot has meaning only while WALKING (R157). -/
inductive WalkProgress where
  | idle
  | walking (next : CrewSlotNo)
  deriving DecidableEq, Repr

/-- The shift cut walk and its tallies (R157). -/
structure Walk where
  progress : WalkProgress
  switched : Nat
  withdrawn : Nat
  handedBack : Nat
  deriving DecidableEq, Repr

/-- The SHIFT CUT DONE latch (R163). -/
structure ShiftCutLatch where
  latched : Bool
  switched : Nat
  withdrawn : Nat
  handedBack : Nat
  deriving DecidableEq, Repr

/-- The Crew Roster (chapters 2 and 9). -/
structure Roster where
  crews : Vector (Option Crew) 48
  unknownBadge : UnknownBadgeLatch
  walk : Walk
  shiftCutDone : ShiftCutLatch
  deriving DecidableEq, Repr

/-! ## The Site Plan -/

/-- A zone entry (R53). -/
structure ZoneEntry where
  beacon : Bool
  neighbours : List Zone
  deriving DecidableEq, Repr

/-- A point entry (R54). -/
structure PointEntry where
  zone : Option Zone
  enabled : Bool
  deriving DecidableEq, Repr

/-- The reaches, in rising order (R55, R56). -/
inductive Reach where
  | zone | near | site
  deriving DecidableEq, Repr

/-- The mode of a rung: SINGLE with its tries, or ALL (R55). -/
inductive RungMode where
  | single (tries : Nat)
  | all
  deriving DecidableEq, Repr

/-- A rung; the offer time in seconds (R55). -/
structure Rung where
  grade : Grade
  reach : Reach
  mode : RungMode
  offerTime : Nat
  deriving DecidableEq, Repr

/-- A present ladder; times in seconds (R55). -/
structure Ladder where
  rungs : List Rung
  travel : Option Nat
  reclaim : Bool
  retry : Nat
  deriving DecidableEq, Repr

inductive LineRate where
  | kbit12_5 | kbit50
  deriving DecidableEq, Repr

inductive EchoPolicy where
  | lineFault | arbitrationLoss
  deriving DecidableEq, Repr

/-- The line settings item (R58). -/
structure LineSettings where
  rate : LineRate
  echo : EchoPolicy
  deriving DecidableEq, Repr

/-- The plan states (R59). -/
inductive PlanPhase where
  | openCold | openWarm | closed
  deriving DecidableEq, Repr

/-- The Site Plan (chapter 3). The auto-close count is stopped outside a warm session (R59); that a stopped count holds no
number is the model's choice (log 37). The ladder of a trade and a class stands at 3 × trade + class. -/
structure SitePlan where
  zones : Vector ZoneEntry 16
  points : Vector PointEntry 96
  ladders : Vector (Option Ladder) 12
  loadLimit : Nat
  sightingWindow : Nat
  thresholdLow : Nat
  thresholdHigh : Nat
  attemptLimit : Nat
  lineSettings : LineSettings
  phase : PlanPhase
  firstClose : Bool
  autoClose : Option Nat
  autoClosed : Bool
  deriving DecidableEq, Repr

/-! ## The Dispatcher and the Escalation Clock -/

/-- The Dispatcher's own state (R69, R95). -/
structure Dispatcher where
  list : List CallSlotNo
  horn : Bool
  silenced : Bool
  deriving DecidableEq, Repr

/-- How many ticks have been made and not yet taken at each owner of a tick: the call timers, the sighting ages, the
auto-close count and the minute count (R104). The counts are the model's own (log 5). -/
structure TickDue where
  timers : Vector Nat 64
  sightings : Vector Nat 48
  autoClose : Nat
  minuteCount : Nat
  deriving DecidableEq, Repr

/-- How many minutes have been made and not yet taken at each owner of a minute: the ages of calls and the idle minutes of
crews (R105). The counts are the model's own (log 5). -/
structure MinuteDue where
  ages : Vector Nat 64
  idles : Vector Nat 48
  deriving DecidableEq, Repr

/-- The Escalation Clock (R104, R105), with the ticks and minutes on their way to their owners (log 5). -/
structure Clock where
  oneSecondPhase : Nat
  minuteCount : Nat
  tickDue : TickDue
  minuteDue : MinuteDue
  deriving DecidableEq, Repr

/-! ## The Send Queue -/

/-- The mode a PAGE carries (R111). -/
inductive PageMode where
  | single | all | assigned
  deriving DecidableEq, Repr

/-- The reasons a WITHDRAW carries (R111). -/
inductive WithdrawReason where
  | taken | lapsed | preEmpted | handover | reclaimed | closed | held
  deriving DecidableEq, Repr

/-- The state of one lamp (R153). -/
inductive LampState where
  | dark | waiting | paging | coming | onSite | noCrew
  deriving DecidableEq, Repr

/-- The four lamp states of a point (R111, R153). -/
structure LampStates where
  electrical : LampState
  mechanical : LampState
  hydraulic : LampState
  crane : LampState
  deriving DecidableEq, Repr

/-- The content fields of a PAGE (R111). -/
structure Page where
  tag : Tag
  badge : Badge
  trade : Trade
  cls : CallClass
  zone : Zone
  origin : Origin
  rung : Nat
  mode : PageMode
  deriving DecidableEq, Repr

/-- The content fields of a WITHDRAW (R111). -/
structure Withdraw where
  tag : Tag
  badge : Badge
  reason : WithdrawReason
  cls : CallClass
  deriving DecidableEq, Repr

/-- The content of an entry (R111). -/
inductive EntryContent where
  | page (p : Page)
  | withdraw (w : Withdraw)
  | lamp (point : Point) (states : LampStates)
  deriving DecidableEq, Repr

/-- An entry of the Send Queue (R111). -/
structure Entry where
  content : EntryContent
  band : CallClass
  attempts : Nat
  dest : Option Addr
  inFlight : Bool
  deriving DecidableEq, Repr

/-- The Send Queue (chapter 6), entries in order. -/
structure SendQueue where
  entries : List Entry
  throttled : Bool
  queueHigh : Bool
  deriving DecidableEq, Repr

/-! ## The Line Controller and the Frame Interpreter -/

/-- What the Line Controller does while its line state is BUSY (R129, R130, R133, R135, R136): waiting for the next idle with
no frame to receive, the line after a frame has ended, receiving a frame of another node, sending a frame (until the last
cell of its check byte), waiting for the receipt of that frame or reading it, or driving a receipt. -/
inductive BusyWith where
  | waitingForIdle
  | frameOver
  | receiving
  | sending (f : Frame)
  | receiptWindow
  | drivingReceipt (bytes : List Byte)
  deriving DecidableEq, Repr

/-- The five line states (R129). -/
inductive LineState where
  | silent
  | idle
  | busy (what : BusyWith)
  | held
  | stuck
  deriving DecidableEq, Repr

inductive LineEvent where
  | hold | clear
  deriving DecidableEq, Repr

/-- The line-event latch (R138). -/
structure LineEventLatch where
  latched : Bool
  event : LineEvent
  deriving DecidableEq, Repr

/-- The Line Controller (chapter 7). `settings` are those taken at the cold plan close (R141); `holdMarks` counts the 4 s
marks of the hold (R138). -/
structure LineController where
  state : LineState
  settings : LineSettings
  holdMarks : Nat
  answering : Vector Bool 16
  receiveErrors : Nat
  sendFaults : Nat
  lineEvent : LineEventLatch
  lineStuck : Bool
  deriving DecidableEq, Repr

/-! ## The Host Port -/

/-- The result codes (R170). -/
inductive ResultCode where
  | ok | new | merged | none
  | badField | noSuch | stale | full | duplicate | loaded | offDuty | wrongState | held
  | planOpen | planClosed | locked | inUse | badPlan | unknownCommand
  deriving DecidableEq, Repr

inductive ResetCause where
  | cold | warm
  deriving DecidableEq, Repr

/-- The data locations 0x1C–0x1E of the notice last taken (R172). -/
structure NoticeData where
  first : Byte
  second : Byte
  third : Byte
  deriving DecidableEq, Repr

/-- The Host Port (chapter 10). `dataLines` is the byte that the latest STATUS_READ or NOTICE_TAKE presented (log 16). -/
structure HostPort where
  buffer : Vector Byte 24
  busy : Bool
  code : Byte
  result : ResultCode
  overrun : Bool
  mask : BitVec 8
  restart : Bool
  resetCause : ResetCause
  noticeData : NoticeData
  dataLines : Option Byte
  deriving DecidableEq, Repr

/-- Whether the part runs: the reset line released, low, or low since before the end of the cold reset (R176, R177), or the
internal detector holding the part in cold reset (R176). -/
inductive ResetLine where
  | released | low | lowSincePowerOn | coldReset
  deriving DecidableEq, Repr

/-- The state of the part: its nine blocks, its reset line, and the commands waiting, first in, first out. -/
structure State where
  calls : CallTable
  roster : Roster
  plan : SitePlan
  disp : Dispatcher
  clock : Clock
  queue : SendQueue
  line : LineController
  lampStale : Vector Bool 96
  port : HostPort
  resetLine : ResetLine
  pending : List Instr
  deriving DecidableEq, Repr

/-! ## Power-on values -/

/-- R28. -/
def CallTable.powerOn : CallTable where
  slots := Vector.replicate 64 { generation := 0, call := .none }
  attentionQueue := []
  tableFull := { latched := false, origin := .none, count := 0 }

/-- R157, R165: the walk state IDLE and the tallies 0. -/
def Walk.reset : Walk := { progress := .idle, switched := 0, withdrawn := 0, handedBack := 0 }

/-- R50, R157, R163. -/
def Roster.powerOn : Roster where
  crews := Vector.replicate 48 .none
  unknownBadge := { latched := false, badge := .none, overrun := false }
  walk := Walk.reset
  shiftCutDone := { latched := false, switched := 0, withdrawn := 0, handedBack := 0 }

/-- R58: the power-on line settings. -/
def LineSettings.powerOn : LineSettings := { rate := .kbit12_5, echo := .lineFault }

/-- R60, with the power-on values of R57 and R58. -/
def SitePlan.powerOn : SitePlan where
  zones := Vector.replicate 16 { beacon := false, neighbours := [] }
  points := Vector.replicate 96 { zone := .none, enabled := false }
  ladders := Vector.replicate 12 .none
  loadLimit := 2
  sightingWindow := 90
  thresholdLow := 0
  thresholdHigh := 0
  attemptLimit := 3
  lineSettings := LineSettings.powerOn
  phase := .openCold
  firstClose := false
  autoClose := .none
  autoClosed := false

/-- R97. -/
def Dispatcher.reset : Dispatcher := { list := [], horn := false, silenced := false }

/-- No tick is on its way (log 5). -/
def TickDue.none : TickDue where
  timers := Vector.replicate 64 0
  sightings := Vector.replicate 48 0
  autoClose := 0
  minuteCount := 0

/-- No minute is on its way (log 5). -/
def MinuteDue.none : MinuteDue := { ages := Vector.replicate 64 0, idles := Vector.replicate 48 0 }

/-- R109. -/
def Clock.powerOn : Clock where
  oneSecondPhase := 0
  minuteCount := 0
  tickDue := TickDue.none
  minuteDue := MinuteDue.none

/-- R124. -/
def SendQueue.reset : SendQueue := { entries := [], throttled := false, queueHigh := false }

/-- R141. The event that the line-event latch holds while it is clear is the model's choice (log 18). -/
def LineController.powerOn : LineController where
  state := .silent
  settings := LineSettings.powerOn
  holdMarks := 0
  answering := Vector.replicate 16 true
  receiveErrors := 0
  sendFaults := 0
  lineEvent := { latched := false, event := .clear }
  lineStuck := false

/-- R175, with the cause of the reset. -/
def HostPort.afterReset (cause : ResetCause) : HostPort where
  buffer := Vector.replicate 24 0
  busy := false
  code := 0
  result := .none
  overrun := false
  mask := 0xFF
  restart := true
  resetCause := cause
  noticeData := { first := 0, second := 0, third := 0 }
  dataLines := .none

/-- The part at the end of the cold reset with the reset line released (R176). -/
def State.reset : State where
  calls := CallTable.powerOn
  roster := Roster.powerOn
  plan := SitePlan.powerOn
  disp := Dispatcher.reset
  clock := Clock.powerOn
  queue := SendQueue.reset
  line := LineController.powerOn
  lampStale := Vector.replicate 96 false
  port := HostPort.afterReset .cold
  resetLine := .released
  pending := []

/-! ## Why a step can stop -/

/-- The faults of a step. The data book gives every event an effect, so no meaning faults and there is no constructor: this
is neither safe nor unsafe, since nothing raises one. -/
inductive Fault where
  deriving DecidableEq, Repr

/-- The refusals of a step. -/
inductive Refusal where
  /-- Raised by an arm of exec whose command has no meaning yet; safe. No arm of this model raises it. -/
  | notModelled (mnemonic : String)
  deriving DecidableEq, Repr

end Sys2Proof.Machine
end

