-- ==== Sys2Proof/Machine/Ops.lean ====
section
/-! DEFINITION. The named operations over the records: reading and writing calls and crews, tags and badges, timers, histories, attention, the dispatch list, and the reading of the plan. -/

namespace Sys2Proof.Machine

/-! ## Orders and codes used everywhere -/

/-- ROUTINE < URGENT < STOP (00_scope section 5). -/
def classRank : CallClass → Nat
  | .routine => 0
  | .urgent => 1
  | .stop => 2

/-- FITTER < LEAD < SUPERVISOR (R56). -/
def gradeRank : Grade → Nat
  | .fitter => 0
  | .lead => 1
  | .supervisor => 2

/-- ZONE < NEAR < SITE (R56). -/
def reachRank : Reach → Nat
  | .zone => 0
  | .near => 1
  | .site => 2

/-- ELECTRICAL 0, MECHANICAL 1, HYDRAULIC 2, CRANE 3 (R182). -/
def tradeIndex : Trade → Fin 4
  | .electrical => 0
  | .mechanical => 1
  | .hydraulic => 2
  | .crane => 3

/-- A saturating count stops at its upper limit (00_scope section 6). -/
def saturate (limit n : Nat) : Nat := min limit (n + 1)

/-- All slots in slot order. -/
def callSlots : List CallSlotNo := List.finRange 64
def crewSlots : List CrewSlotNo := List.finRange 48

/-! ## Records -/

def State.slot (s : State) (i : CallSlotNo) : CallSlot := s.calls.slots[i]

/-- The call in a slot, absent when the slot is FREE (R1). -/
def State.call (s : State) (i : CallSlotNo) : Option Call := (s.slot i).call

def State.setSlot (s : State) (i : CallSlotNo) (x : CallSlot) : State :=
  { s with calls := { s.calls with slots := s.calls.slots.set i x } }

/-- Change the record of a call; a FREE slot stays FREE. -/
def State.modCall (s : State) (i : CallSlotNo) (f : Call → Call) : State :=
  match s.call i with
  | some c => s.setSlot i { s.slot i with call := some (f c) }
  | none => s

/-- The crew in a slot, absent when the slot is unoccupied (R30). -/
def State.crew (s : State) (k : CrewSlotNo) : Option Crew := s.roster.crews[k]

def State.setCrew (s : State) (k : CrewSlotNo) (x : Option Crew) : State :=
  { s with roster := { s.roster with crews := s.roster.crews.set k x } }

/-- Change the record of a crew; an unoccupied slot stays unoccupied. -/
def State.modCrew (s : State) (k : CrewSlotNo) (f : Crew → Crew) : State :=
  match s.crew k with
  | some c => s.setCrew k (some (f c))
  | none => s

/-- A call is live in every state but FREE and CLOSED (R4). -/
def Call.live (c : Call) : Bool := c.state != .closed

/-! ## Tags and badges -/

/-- The tag of the call in a slot (R3). -/
def State.tagOf (s : State) (i : CallSlotNo) : Tag := { generation := (s.slot i).generation, slot := i }

/-- Slot + 64 × generation (R3). -/
def Tag.byte (t : Tag) : Byte := BitVec.ofNat 8 (t.slot.val + 64 * t.generation.val)

/-- The slot is the tag modulo 64 and the generation the tag divided by 64 (R3). -/
def Tag.ofByte (b : Byte) : Tag where
  generation := ⟨b.toNat / 64, by have := b.isLt; omega⟩
  slot := ⟨b.toNat % 64, by omega⟩

/-- What a tag given to the part names (R3). -/
inductive TagMeaning where
  | stale | vacant
  | names (c : Call)
  deriving DecidableEq, Repr

def State.resolve (s : State) (t : Tag) : TagMeaning :=
  if (s.slot t.slot).generation ≠ t.generation then .stale
  else match s.call t.slot with
    | none => .vacant
    | some c => .names c

/-- The numbers 0 and 65535 are no badges (R31). -/
def badgeValid (b : Badge) : Bool := b != 0 && b != 0xFFFF

/-- The crew slot that carries a badge, if the badge is enrolled (R31). -/
def State.enrolled (s : State) (b : Badge) : Option CrewSlotNo :=
  crewSlots.find? (fun k => match s.crew k with
    | some c => c.badge == b
    | none => false)

/-! ## Reading the plan -/

/-- The ladder of a trade and class, absent when it has no rungs (R55). -/
def ladderIndex (t : Trade) (c : CallClass) : Fin 12 :=
  ⟨3 * (tradeIndex t).val + classRank c, by cases t <;> cases c <;> decide⟩

def State.ladder (s : State) (t : Trade) (c : CallClass) : Option Ladder := s.plan.ladders[ladderIndex t c]

/-- A call's ladder is that of its trade and current class (R1). -/
def State.ladderOf (s : State) (c : Call) : Option Ladder := s.ladder c.trade c.cls

/-- The rung a call stands at. -/
def State.rungOf (s : State) (c : Call) : Option Rung := (s.ladderOf c).bind (fun l => l.rungs[c.rung]?)

/-- The tries of a rung, an ALL rung counting as one (R2). -/
def Rung.tries (r : Rung) : Nat :=
  match r.mode with
  | .single n => n
  | .all => 1

/-- The mode a PAGE of the rung carries (R75). -/
def Rung.pageMode (r : Rung) : PageMode :=
  match r.mode with
  | .single _ => .single
  | .all => .all

/-- A crew is reachable when its last-seen zone is present and its sighting age is within the window (R48). -/
def State.reachable (s : State) (c : Crew) : Bool := c.lastSeen.isSome && c.sightAge ≤ s.plan.sightingWindow

/-- Zone y is a neighbour of zone x when it stands in x's list (R53). -/
def State.neighbour (s : State) (x y : Zone) : Bool := s.plan.zones[x].neighbours.contains y

/-! ## Call timers -/

/-- Loading a timer sets its mode and count and clears its mark (R99). -/
def Call.loadTimer (c : Call) (mode : TimerMode) (count : Nat) : Call :=
  { c with timer := { mode := mode, count := count, expiryPending := false } }

/-- A change to mode NONE stops the timer, leaves the count and removes a pending expiry (R98, R100). -/
def Call.stopTimer (c : Call) : Call := { c with timer := { c.timer with mode := .none, expiryPending := false } }

/-- TRAVEL with the ladder's allowance, or NONE when there is none (R79, R92). -/
def Call.loadTravel (l : Option Ladder) (c : Call) : Call :=
  match l.bind (·.travel) with
  | some n => c.loadTimer .travel n
  | none => c.stopTimer

/-- A timer is running when its mode is not NONE and its call is not held (R98). -/
def Call.timerRunning (c : Call) : Bool := c.timer.mode != .none && c.hold.isNone

/-- The tick at a call timer (R99): a running count above 0 is lowered, and the step from 1 to 0 sets the mark. -/
def Call.tickTimer (c : Call) : Call :=
  if c.timerRunning && c.timer.count != 0 then
    { c with timer := { c.timer with count := c.timer.count - 1, expiryPending := c.timer.count == 1 || c.timer.expiryPending } }
  else c

/-- An expiry of a mode waits to be taken at the call (R100). -/
def Call.expiryDue (c : Call) (mode : TimerMode) : Bool :=
  c.timer.mode == mode && c.timer.expiryPending && c.hold.isNone

/-! ## Offer history -/

/-- Adding an entry to a history of eight drops the oldest first (R2). -/
def addHistory (h : List HistoryEntry) (e : HistoryEntry) : List HistoryEntry :=
  (if Config.historyLimit ≤ h.length then h.drop (h.length + 1 - Config.historyLimit) else h) ++ [e]

/-- The outcomes that exclude a crew from later offers of the call (R2). -/
def OfferOutcome.excludes : OfferOutcome → Bool
  | .declined | .lapsed | .loaded => true
  | .withdrawn | .handedBack | .undelivered => false

/-! ## Attention -/

/-- The bits of an attention set (R182). -/
inductive AttentionReason where
  | new | taken | onSite | unclaimed | overdue | handedBack | upgraded | closed
  deriving DecidableEq, Repr

def AttentionReason.bit : AttentionReason → BitVec 8
  | .new => 0x01
  | .taken => 0x02
  | .onSite => 0x04
  | .unclaimed => 0x08
  | .overdue => 0x10
  | .handedBack => 0x20
  | .upgraded => 0x40
  | .closed => 0x80

def State.setAttentionQueue (s : State) (q : List CallSlotNo) : State :=
  { s with calls := { s.calls with attentionQueue := q } }

/-- Adding a reason: the call joins the tail of the attention queue when its set becomes non-empty (R21, R22). -/
def State.addAttention (s : State) (i : CallSlotNo) (r : AttentionReason) : State :=
  match s.call i with
  | none => s
  | some c =>
    let s' := s.setSlot i { s.slot i with call := some { c with attention := c.attention ||| r.bit } }
    if c.attention = 0 then s'.setAttentionQueue (s.calls.attentionQueue ++ [i]) else s'

/-- Freeing a slot by RETIRE or by reclaim: the attention goes, the fields lose their values, the generation stays
(R9, R17). -/
def State.freeSlot (s : State) (i : CallSlotNo) : State :=
  (s.setSlot i { s.slot i with call := none }).setAttentionQueue (s.calls.attentionQueue.filter (· ≠ i))

/-! ## The dispatch list -/

def State.setDispatchList (s : State) (l : List CallSlotNo) : State := { s with disp := { s.disp with list := l } }

/-- The class rank of the call in a slot, for the order of the dispatch list. -/
def State.bandOf (s : State) (i : CallSlotNo) : Nat :=
  match s.call i with
  | some c => classRank c.cls
  | none => 0

def State.leaveDispatch (s : State) (i : CallSlotNo) : State := s.setDispatchList (s.disp.list.filter (· ≠ i))

/-- Joining the tail of a band: after every call of the same or a higher class (R69). -/
def joinBand (rank : CallSlotNo → Nat) (i : CallSlotNo) (l : List CallSlotNo) : List CallSlotNo :=
  l.takeWhile (fun j => rank i ≤ rank j) ++ i :: l.dropWhile (fun j => rank i ≤ rank j)

/-- A call joins the dispatch list at the tail of its class band; the list holds it at most once (R69). -/
def State.joinDispatch (s : State) (i : CallSlotNo) : State :=
  s.setDispatchList (joinBand s.bandOf i (s.disp.list.filter (· ≠ i)))

/-- A call that becomes WAITING: its timer goes to NONE, and it joins the list unless it is held (R18, R69, R98). -/
def State.becomeWaiting (s : State) (i : CallSlotNo) : State :=
  let s' := s.modCall i (fun c => { c.stopTimer with state := .waiting })
  match s'.call i with
  | some c => if c.hold.isNone then s'.joinDispatch i else s'
  | none => s'

/-! ## Load -/

/-- A crew's load falls by one; when it falls to 0 from 1 the idle minutes go to 0 (R44, R45). -/
def Crew.dropLoad (c : Crew) : Crew :=
  if c.load = 1 then { c with load := 0, idle := 0 } else { c with load := c.load - 1 }

/-! ## Other record blocks -/

/-- The queue of waiting commands replaced (log 1). -/
def State.setPending (s : State) (q : List Instr) : State := { s with pending := q }

def State.setEntries (s : State) (q : List Entry) : State := { s with queue := { s.queue with entries := q } }

def State.setLampStale (s : State) (p : Point) (b : Bool) : State := { s with lampStale := s.lampStale.set p b }

def State.setAnswering (s : State) (z : Zone) (b : Bool) : State :=
  { s with line := { s.line with answering := s.line.answering.set z b } }

def State.setLineState (s : State) (l : LineState) : State := { s with line := { s.line with state := l } }

/-- The receive-error count gains one (R140). -/
def State.countReceiveError (s : State) : State :=
  { s with line := { s.line with receiveErrors := saturate Config.errorCountLimit s.line.receiveErrors } }

/-- The send-fault count gains one (R140). -/
def State.countSendFault (s : State) : State :=
  { s with line := { s.line with sendFaults := saturate Config.errorCountLimit s.line.sendFaults } }

/-- The line-event latch is set, its event written over the one held (R138). -/
def State.latchLineEvent (s : State) (e : LineEvent) : State :=
  { s with line := { s.line with lineEvent := { latched := true, event := e } } }

end Sys2Proof.Machine
end

