-- ==== Sys2Proof/Machine/Operands.lean ====
section
/-! DEFINITION. The operands of commands and the bytes of answers: every code and layout of chapter 12 (R182). -/

namespace Sys2Proof.Machine

/-! ## Bytes and bits -/

def byteOf (n : Nat) : Byte := BitVec.ofNat 8 n
def flagByte (b : Bool) : Byte := if b then 1 else 0

/-- Numbers of two bytes stand most significant byte first (R182). -/
def word16 (hi lo : Byte) : BitVec 16 := hi ++ lo
def hiByte (w : BitVec 16) : Byte := w.extractLsb' 8 8
def loByte (w : BitVec 16) : Byte := w.extractLsb' 0 8

/-- A byte cut into its upper and lower four bits. -/
def highNibble (b : Byte) : Nat := b.toNat / 16
def lowNibble (b : Byte) : Nat := b.toNat % 16

/-- A byte made of two four-bit fields. -/
def nibbles (hi lo : Nat) : Byte := byteOf (16 * hi + lo)

/-- Eight bits, bit 7 first, as a byte. -/
def byteOfBits (l : List Bool) : Byte := byteOf (l.foldl (fun n b => 2 * n + b.toNat) 0)

/-! ## Codes read -/

def readTrade (n : Nat) : Option Trade :=
  match n with
  | 0 => some .electrical
  | 1 => some .mechanical
  | 2 => some .hydraulic
  | 3 => some .crane
  | _ => none

def readClass (n : Nat) : Option CallClass :=
  match n with
  | 0 => some .routine
  | 1 => some .urgent
  | 2 => some .stop
  | _ => none

def readGrade (n : Nat) : Option Grade :=
  match n with
  | 0 => some .fitter
  | 1 => some .lead
  | 2 => some .supervisor
  | _ => none

def readReach (n : Nat) : Option Reach :=
  match n with
  | 0 => some .zone
  | 1 => some .near
  | 2 => some .site
  | _ => none

def readFlag (n : Nat) : Option Bool :=
  match n with
  | 0 => some false
  | 1 => some true
  | _ => none

/-- A zone number 1–16. -/
def readZone (n : Nat) : Option Zone :=
  if h : 1 ≤ n ∧ n ≤ 16 then some ⟨n - 1, by omega⟩ else none

/-- A desk number 1–8. -/
def readDesk (n : Nat) : Option (Fin 8) :=
  if h : 1 ≤ n ∧ n ≤ 8 then some ⟨n - 1, by omega⟩ else none

/-- An origin byte: a desk 1–8 or a point 16–111 (R1). -/
def readOrigin (n : Nat) : Option Origin :=
  match readDesk n with
  | some d => some (.desk d)
  | none => if h : 16 ≤ n ∧ n ≤ 111 then some (.point ⟨n - 16, by omega⟩) else none

/-- A badge argument 1–65534 (R32). -/
def readBadge (hi lo : Byte) : Option Badge :=
  if badgeValid (word16 hi lo) then some (word16 hi lo) else none

/-- A trades set: bit n for trade n, the other bits not read, the empty set refused (R32, R182). -/
def readTrades (b : Byte) : Option (BitVec 4) :=
  if b.extractLsb' 0 4 = 0 then none else some (b.extractLsb' 0 4)

/-- A crew carries a trade (R72). -/
def hasTrade (trades : BitVec 4) (t : Trade) : Bool := trades.getLsbD (tradeIndex t).val

/-! ## Codes written -/

def tradeCode (t : Trade) : Nat := (tradeIndex t).val

def zoneNumber (z : Zone) : Nat := z.val + 1

/-- An absent zone is written 0 (R182). -/
def zoneByte (z : Option Zone) : Byte :=
  match z with
  | some z => byteOf (zoneNumber z)
  | none => 0

/-- An absent crew slot is written 0xFF (R182). -/
def crewSlotByte (k : Option CrewSlotNo) : Byte :=
  match k with
  | some k => byteOf k.val
  | none => 0xFF

def originByte : Origin → Byte
  | .point p => byteOf (16 + p.val)
  | .desk d => byteOf (d.val + 1)

def dutyByte : Duty → Byte
  | .off => 0
  | .on => 1

/-- Staged duty: absent 0, ON 1, OFF 2 (R182). -/
def stagedCode : Option Duty → Nat
  | none => 0
  | some .on => 1
  | some .off => 2

/-- State codes of a call (12.5). -/
def callStateCode : CallState → Nat
  | .waiting => 1
  | .offered => 2
  | .accepted => 3
  | .attending => 4
  | .unclaimed => 5
  | .closed => 6

def holdCode : Option HoldKind → Nat
  | none => 0
  | some .command => 1
  | some .restart => 2

def closeReasonCode : Option CloseReason → Nat
  | none => 0
  | some .cleared => 1
  | some .cancelled => 2
  | some .closedByCommand => 3

def timerModeCode : TimerMode → Nat
  | .none => 0
  | .offer => 1
  | .travel => 2
  | .retry => 3

def outcomeCode : OfferOutcome → Nat
  | .declined => 0
  | .lapsed => 1
  | .loaded => 2
  | .withdrawn => 3
  | .handedBack => 4
  | .undelivered => 5

def pageModeCode : PageMode → Nat
  | .single => 0
  | .all => 1
  | .assigned => 2

def withdrawReasonCode : WithdrawReason → Nat
  | .taken => 1
  | .lapsed => 2
  | .preEmpted => 3
  | .handover => 4
  | .reclaimed => 5
  | .closed => 6
  | .held => 7

def lampStateCode : LampState → Nat
  | .dark => 0
  | .waiting => 1
  | .paging => 2
  | .coming => 3
  | .onSite => 4
  | .noCrew => 5

def lineStateCode : LineState → Byte
  | .silent => 0
  | .idle => 1
  | .busy _ => 2
  | .held => 3
  | .stuck => 4

def resetCauseByte : ResetCause → Byte
  | .cold => 1
  | .warm => 2

/-- The result codes of 12.3. -/
def ResultCode.byte : ResultCode → Byte
  | .ok => 0x00
  | .new => 0x01
  | .merged => 0x02
  | .none => 0x03
  | .badField => 0x10
  | .noSuch => 0x11
  | .stale => 0x12
  | .full => 0x13
  | .duplicate => 0x14
  | .loaded => 0x15
  | .offDuty => 0x16
  | .wrongState => 0x17
  | .held => 0x18
  | .planOpen => 0x19
  | .planClosed => 0x1A
  | .locked => 0x1B
  | .inUse => 0x1C
  | .badPlan => 0x1D
  | .unknownCommand => 0x1F

/-! ## Command codes (12.4) -/

/-- The 22 commands of the host port. -/
inductive HostCommand where
  | hostRaise | readCall | findCalls | hold | resume | closeCall | retire | assign | escalate | repage
  | enrol | amend | removeCrew | readCrew | setDuty | stageDuty | shiftCut
  | planWrite | planRead | planClose | silenceHorn | lineState
  deriving DecidableEq, Repr

def HostCommand.code : HostCommand → Byte
  | .hostRaise => 0x01
  | .readCall => 0x02
  | .findCalls => 0x03
  | .hold => 0x04
  | .resume => 0x05
  | .closeCall => 0x06
  | .retire => 0x07
  | .assign => 0x08
  | .escalate => 0x09
  | .repage => 0x0A
  | .enrol => 0x0B
  | .amend => 0x0C
  | .removeCrew => 0x0D
  | .readCrew => 0x0E
  | .setDuty => 0x0F
  | .stageDuty => 0x10
  | .shiftCut => 0x11
  | .planWrite => 0x12
  | .planRead => 0x13
  | .planClose => 0x14
  | .silenceHorn => 0x15
  | .lineState => 0x16

/-- A command code names a command when it is 0x01–0x16 (12.4). -/
def namesCommand (code : Byte) : Bool := 1 ≤ code.toNat && code.toNat ≤ 0x16

/-! ## Reading arguments from the buffer -/

/-- The argument byte at a buffer location (R168). -/
def State.arg (s : State) (n : Fin 24) : Byte := s.port.buffer[n]

/-! ## The answer of READ CALL (12.5) -/

/-- The nine bits of a history entry: the crew slot in six, the outcome in three. -/
def historyBits (e : HistoryEntry) : List Bool :=
  bitsOf (BitVec.ofNat 6 e.crew.val) ++ bitsOf (BitVec.ofNat 3 (outcomeCode e.outcome))

/-- Bits packed into bytes, bit 7 of the first byte first; the bits beyond the end are 0. -/
def packBytes : Nat → List Bool → List Byte
  | 0, _ => []
  | n + 1, l => byteOfBits ((l.take 8) ++ List.replicate (8 - (l.take 8).length) false) :: packBytes n (l.drop 8)

/-- Bytes 6–9: the holder of an ACCEPTED or ATTENDING call and 0xFF, else the offeree set in order and 0xFF. -/
def crewSlotBytes (c : Call) : List Byte :=
  let ks : List CrewSlotNo := match c.state with
    | .accepted | .attending => c.holder.toList
    | .waiting | .offered | .unclaimed | .closed => c.offerees
  (ks.take 4).map (fun k => crewSlotByte (some k)) ++ List.replicate (4 - (ks.take 4).length) (crewSlotByte none)

/-- Bytes 10–11: the mode in bits 15–14, the count in bits 11–0. -/
def timerWord (t : CallTimer) : BitVec 16 := BitVec.ofNat 16 (0x4000 * timerModeCode t.mode + t.count % 0x1000)

def callAnswer (tag : Tag) (c : Call) : List Byte :=
  [ tag.byte,
    byteOf (callStateCode c.state + 8 * holdCode c.hold + 32 * c.reported.toNat + 64 * closeReasonCode c.closeReason),
    originByte c.origin,
    byteOf (16 * c.zone.val + 4 * tradeCode c.trade + classRank c.cls),
    nibbles c.raiseCount c.unclaimedRounds,
    nibbles c.rung c.triesUsed ] ++
  crewSlotBytes c ++
  [ hiByte (timerWord c.timer), loByte (timerWord c.timer),
    byteOf c.age,
    c.attention,
    byteOf c.history.length ] ++
  packBytes 9 (c.history.flatMap historyBits)

/-! ## The answer of READ CREW (12.6) -/

/-- The slots of the calls a crew holds, in order of call slot (R36). -/
def State.heldCalls (s : State) (k : CrewSlotNo) : List CallSlotNo :=
  callSlots.filter (fun i => match s.call i with
    | some c => c.holder == some k
    | none => false)

/-- The answer of READ CREW (12.6). Byte 12 has a meaning only beside bit 4 of byte 5, which shows an outstanding offer; that
it holds 0 without one is the model's choice (log 35). -/
def crewAnswer (s : State) (k : CrewSlotNo) (c : Crew) : List Byte :=
  let held := ((s.heldCalls k).take 3).map (fun i => (s.tagOf i).byte)
  [ byteOf k.val, hiByte c.badge, loByte c.badge,
    byteOf (c.trades.toNat + 16 * gradeRank c.grade),
    byteOf (zoneNumber c.home),
    byteOf ((dutyByte c.duty).toNat + 2 * stagedCode c.staged + 8 * (s.reachable c).toNat + 16 * c.offer.isSome.toNat),
    zoneByte c.lastSeen,
    byteOf c.sightAge,
    byteOf c.load ] ++
  held ++ List.replicate (3 - held.length) 0 ++
  [ (match c.offer with
      | some t => t.byte
      | none => 0),
    byteOf c.idle ]

/-! ## Plan items (12.7) -/

/-- A plan item named by an identifier (R52). -/
inductive PlanItem where
  | zone (z : Zone)
  | point (p : Point)
  | ladder (t : Trade) (c : CallClass)
  | loadLimit | sightingWindow | thresholds | attemptLimit | lineSettings
  deriving DecidableEq, Repr

/-- The item that a kind byte and an index byte name, if any (R52, 12.7). -/
def readItem (kind index : Byte) : Option PlanItem :=
  match kind.toNat, index.toNat with
  | 1, n => (readZone n).map .zone
  | 2, n => if h : 16 ≤ n ∧ n ≤ 111 then some (.point ⟨n - 16, by omega⟩) else none
  | 3, _ =>
    match readTrade (highNibble index), readClass (lowNibble index) with
    | some t, some c => some (.ladder t c)
    | _, _ => none
  | 4, 0 => some .loadLimit
  | 5, 0 => some .sightingWindow
  | 6, 0 => some .thresholds
  | 7, 0 => some .attemptLimit
  | 8, 0 => some .lineSettings
  | _, _ => none

/-- The identifier bytes of an item. -/
def PlanItem.bytes : PlanItem → List Byte
  | .zone z => [1, byteOf (zoneNumber z)]
  | .point p => [2, byteOf (16 + p.val)]
  | .ladder t c => [3, nibbles (tradeCode t) (classRank c)]
  | .loadLimit => [4, 0]
  | .sightingWindow => [5, 0]
  | .thresholds => [6, 0]
  | .attemptLimit => [7, 0]
  | .lineSettings => [8, 0]

/-- The contents a PLAN WRITE carries for an item. -/
inductive PlanContents where
  | zone (z : Zone) (e : ZoneEntry)
  | point (p : Point) (e : PointEntry)
  | ladder (t : Trade) (c : CallClass) (l : Option Ladder)
  | loadLimit (n : Nat)
  | sightingWindow (n : Nat)
  | thresholds (low high : Nat)
  | attemptLimit (n : Nat)
  | lineSettings (l : LineSettings)
  deriving DecidableEq, Repr

/-- A value in a range. -/
def inRange (lo hi n : Nat) : Option Nat := if lo ≤ n ∧ n ≤ hi then some n else none

/-- All of a list of reads, or none. -/
def readAll {α β : Type} (f : α → Option β) : List α → Option (List β)
  | [] => some []
  | x :: xs =>
    match f x, readAll f xs with
    | some y, some ys => some (y :: ys)
    | _, _ => none

/-- A rung from its two bytes: grade in bits 7–6, reach in bits 5–4, tries in bits 2–0 with 0 for ALL; offer time 1–180 in
units of 5 s (12.7). -/
def readRung (b t : Byte) : Option Rung :=
  match readGrade (b.toNat / 64), readReach (b.toNat / 16 % 4), inRange 0 4 (b.toNat % 8), inRange 1 180 t.toNat with
  | some g, some r, some n, some u =>
    some { grade := g, reach := r, mode := if n = 0 then .all else .single n, offerTime := 5 * u }
  | _, _, _, _ => none

/-- The rungs of a ladder item stand two bytes each from byte 6. -/
def rungBytes (s : State) (n : Nat) : List (Byte × Byte) :=
  ((List.finRange 6).take n).map (fun r => (s.arg ⟨6 + 2 * r.val, by omega⟩, s.arg ⟨7 + 2 * r.val, by omega⟩))

/-- The ladder in the buffer: the outer Option is a field in range, the inner one a present ladder. A rung count of 0
stores an absent ladder, whose other fields are not read (R55). -/
def readLadder (s : State) : Option (Option Ladder) :=
  match (s.arg 2).toNat with
  | 0 => some none
  | n =>
    match inRange 1 6 n, inRange 0 120 (s.arg 3).toNat, readFlag (s.arg 4).toNat, inRange 1 60 (s.arg 5).toNat,
      readAll (fun x => readRung x.1 x.2) (rungBytes s n) with
    | some _, some tr, some rec, some re, some rungs =>
      some (some { rungs := rungs, travel := if tr = 0 then none else some (30 * tr), reclaim := rec, retry := 10 * re })
    | _, _, _, _, _ => none

/-- The neighbours of a zone item: as many as its count, in bytes 4–7; none may be the zone itself or stand twice (R53). -/
def readZoneEntry (s : State) (z : Zone) : Option ZoneEntry :=
  match readFlag (s.arg 2).toNat, inRange 0 4 (s.arg 3).toNat with
  | some b, some n =>
    match readAll (fun (x : Byte) => readZone x.toNat) ([s.arg 4, s.arg 5, s.arg 6, s.arg 7].take n) with
    | some ns => if !ns.contains z && ns.Nodup then some { beacon := b, neighbours := ns } else none
    | none => none
  | _, _ => none

/-- A point entry: zone 0–16, and not enabled with zone 0 (R54). -/
def readPointEntry (s : State) : Option PointEntry :=
  match inRange 0 16 (s.arg 2).toNat, readFlag (s.arg 3).toNat with
  | some n, some e => if n = 0 ∧ e = true then none else some { zone := readZone n, enabled := e }
  | _, _ => none

/-- The thresholds item: low 0–22, high 0–23 (R57). -/
def readThresholds (s : State) : Option (Nat × Nat) :=
  match inRange 0 22 (s.arg 2).toNat, inRange 0 23 (s.arg 3).toNat with
  | some lo, some hi => some (lo, hi)
  | _, _ => none

/-- The line settings item (R58, 12.7). -/
def readLineSettings (s : State) : Option LineSettings :=
  match readFlag (s.arg 2).toNat, readFlag (s.arg 3).toNat with
  | some r, some e =>
    some { rate := if r then .kbit50 else .kbit12_5, echo := if e then .arbitrationLoss else .lineFault }
  | _, _ => none

/-- The contents of an item from byte 2 of the buffer, or none for a field out of range or a form that R53, R54 or R55
refuses (R62 check 4). -/
def readContents (s : State) : PlanItem → Option PlanContents
  | .zone z => (readZoneEntry s z).map (.zone z)
  | .point p => (readPointEntry s).map (.point p)
  | .ladder t c => (readLadder s).map (.ladder t c)
  | .loadLimit => (inRange 1 3 (s.arg 2).toNat).map .loadLimit
  | .sightingWindow => (inRange 15 255 (s.arg 2).toNat).map .sightingWindow
  | .thresholds => (readThresholds s).map (fun t => .thresholds t.1 t.2)
  | .attemptLimit => (inRange 1 4 (s.arg 2).toNat).map .attemptLimit
  | .lineSettings => (readLineSettings s).map .lineSettings

/-- The two bytes of a rung (12.7). -/
def writeRung (r : Rung) : List Byte :=
  let tries := match r.mode with
    | .single n => n
    | .all => 0
  [byteOf (64 * gradeRank r.grade + 16 * reachRank r.reach + tries), byteOf (r.offerTime / 5)]

/-- The contents bytes of a ladder; an absent one shows 0 everywhere (12.7). -/
def writeLadder : Option Ladder → List Byte
  | none => []
  | some l =>
    [byteOf l.rungs.length, byteOf (l.travel.getD 0 / 30), flagByte l.reclaim, byteOf (l.retry / 10)] ++
      l.rungs.flatMap writeRung

/-- The contents bytes of an item as it is stored (R65). -/
def State.itemBytes (s : State) : PlanItem → List Byte
  | .zone z =>
    [flagByte s.plan.zones[z].beacon, byteOf s.plan.zones[z].neighbours.length] ++
      s.plan.zones[z].neighbours.map (fun y => byteOf (zoneNumber y))
  | .point p => [zoneByte s.plan.points[p].zone, flagByte s.plan.points[p].enabled]
  | .ladder t c => writeLadder (s.ladder t c)
  | .loadLimit => [byteOf s.plan.loadLimit]
  | .sightingWindow => [byteOf s.plan.sightingWindow]
  | .thresholds => [byteOf s.plan.thresholdLow, byteOf s.plan.thresholdHigh]
  | .attemptLimit => [byteOf s.plan.attemptLimit]
  | .lineSettings =>
    [flagByte (s.plan.lineSettings.rate == .kbit50), flagByte (s.plan.lineSettings.echo == .arbitrationLoss)]

/-! ## Bodies of the frames sent (12.2) -/

def pageBody (p : Page) : List Byte :=
  [p.tag.byte, hiByte p.badge, loByte p.badge, nibbles (tradeCode p.trade) (pageModeCode p.mode),
   byteOf (zoneNumber p.zone), originByte p.origin, byteOf p.rung]

def withdrawBody (w : Withdraw) : List Byte :=
  [w.tag.byte, hiByte w.badge, loByte w.badge, byteOf (withdrawReasonCode w.reason)]

def lampBody (l : LampStates) : List Byte :=
  [nibbles (lampStateCode l.electrical) (lampStateCode l.mechanical),
   nibbles (lampStateCode l.hydraulic) (lampStateCode l.crane)]

/-! ## Bodies of the frames received (12.2, R143) -/

/-- The keys (R182). -/
inductive Key where
  | accept | decline | onSite | clear
  deriving DecidableEq, Repr

def readKey (n : Nat) : Option Key :=
  match n with
  | 1 => some .accept
  | 2 => some .decline
  | 3 => some .onSite
  | 4 => some .clear
  | _ => none

/-- A RAISE body: trade, class; any other is a body error (R143). -/
def readRaiseBody : List Byte → Option (Trade × CallClass)
  | [t, c] =>
    match readTrade t.toNat, readClass c.toNat with
    | some t, some c => some (t, c)
    | _, _ => none
  | _ => none

/-- A CANCEL body: a trade, or 0xFF for ALL (R143). The inner Option is absent for ALL. -/
def readCancelBody : List Byte → Option (Option Trade)
  | [t] => if t = 0xFF then some none else (readTrade t.toNat).map some
  | _ => none

/-- A KEY body: tag, badge, key (R143). -/
def readKeyBody : List Byte → Option (Tag × Badge × Key)
  | [t, hi, lo, k] =>
    match readBadge hi lo, readKey k.toNat with
    | some b, some k => some (Tag.ofByte t, b, k)
    | _, _ => none
  | _ => none

/-- A SIGHT body: one, two or three badges (R143). -/
def readSightBody : List Byte → Option (List Badge)
  | [a, b] => some [word16 a b]
  | [a, b, c, d] => some [word16 a b, word16 c d]
  | [a, b, c, d, e, f] => some [word16 a b, word16 c d, word16 e f]
  | _ => none

end Sys2Proof.Machine
end

