-- ==== Sys2Proof/Machine/Flags.lean ====
section
/-! DEFINITION. The flags the part computes: the horn condition (R95), the throttled flag and the queue level (R120, R121), the pending notices and the interrupt condition (R171, R173), the status byte (R167) and what a read of each window location presents (R166). -/

namespace Sys2Proof.Machine

/-! ## The horn -/

/-- A STOP-class call that is UNCLAIMED and not held (R95). -/
def Call.sounds (c : Call) : Bool := c.state == .unclaimed && c.hold.isNone && c.cls == .stop

@[irreducible] def State.hornCondition (s : State) : Bool :=
  callSlots.any (fun i => match s.call i with
    | some c => c.sounds
    | none => false)

/-- The horn is on exactly when such a call exists and silenced is clear (R95). -/
def State.evalHorn (s : State) : State := { s with disp := { s.disp with horn := s.hornCondition && !s.disp.silenced } }

/-! ## The Send Queue's thresholds -/

/-- The count of the Send Queue, the in-flight entry included (R112). -/
def State.queueCount (s : State) : Nat := s.queue.entries.length

/-- A pair of zeros selects the automatic values (R120). -/
def State.lowThreshold (s : State) : Nat :=
  if s.plan.thresholdLow = 0 ∧ s.plan.thresholdHigh = 0 then Config.autoThresholdLow else s.plan.thresholdLow

def State.highThreshold (s : State) : Nat :=
  if s.plan.thresholdLow = 0 ∧ s.plan.thresholdHigh = 0 then Config.autoThresholdHigh else s.plan.thresholdHigh

/-- The comparison of R120. -/
def State.compareThrottle (s : State) : State :=
  if !s.queue.throttled && s.highThreshold ≤ s.queueCount then
    { s with queue := { s.queue with throttled := true, queueHigh := true } }
  else if s.queue.throttled && s.queueCount ≤ s.lowThreshold then
    { s with queue := { s.queue with throttled := false } }
  else s

/-- The level codes EMPTY 0, LOW 1, MID 2, HIGH 3 (R121, R182). -/
def State.queueLevel (s : State) : Nat :=
  if s.queueCount = 0 then 0
  else if s.highThreshold ≤ s.queueCount then 3
  else if s.queueCount ≤ s.lowThreshold then 1
  else 2

/-! ## Notices -/

/-- The notice sources in their priority order (R171). -/
inductive NoticeSource where
  | restart | lineStuck | stopCall | lineEvent | tableFull | urgentCall | unknownBadge | queueHigh | routineCall
  | shiftCutDone | planAutoClosed
  deriving DecidableEq, Repr

def noticePriority : List NoticeSource :=
  [.restart, .lineStuck, .stopCall, .lineEvent, .tableFull, .urgentCall, .unknownBadge, .queueHigh, .routineCall,
   .shiftCutDone, .planAutoClosed]

/-- The first call of a class in the attention queue, its class read now (R23). -/
def State.firstAttention (s : State) (cls : CallClass) : Option CallSlotNo :=
  s.calls.attentionQueue.find? (fun i => match s.call i with
    | some c => c.cls == cls
    | none => false)

/-- A notice is pending when its source holds it (R171). -/
def State.noticePending (s : State) : NoticeSource → Bool
  | .restart => s.port.restart
  | .lineStuck => s.line.lineStuck
  | .stopCall => (s.firstAttention .stop).isSome
  | .lineEvent => s.line.lineEvent.latched
  | .tableFull => s.calls.tableFull.latched
  | .urgentCall => (s.firstAttention .urgent).isSome
  | .unknownBadge => s.roster.unknownBadge.latched
  | .queueHigh => s.queue.queueHigh
  | .routineCall => (s.firstAttention .routine).isSome
  | .shiftCutDone => s.roster.shiftCutDone.latched
  | .planAutoClosed => s.plan.autoClosed

/-- The mask bit of each source's group; RESTART belongs to none (R171, R182). -/
def NoticeSource.maskBit : NoticeSource → Option Nat
  | .restart => none
  | .lineStuck | .lineEvent => some 0
  | .tableFull => some 1
  | .unknownBadge => some 2
  | .queueHigh => some 3
  | .stopCall => some 4
  | .urgentCall => some 5
  | .routineCall => some 6
  | .shiftCutDone | .planAutoClosed => some 7

/-- A source whose group is enabled (R173). -/
def State.unmasked (s : State) (n : NoticeSource) : Bool :=
  match n.maskBit with
  | none => true
  | some b => s.port.mask.getLsbD b

/-- The pending notice of highest priority whose group is not masked (R172). -/
def State.nextNotice (s : State) : Option NoticeSource :=
  noticePriority.find? (fun n => s.noticePending n && s.unmasked n)

/-- The interrupt condition (R173). -/
def State.interruptCondition (s : State) : Bool := s.nextNotice.isSome

/-- INTL is driven low while the condition holds, but not while the reset line is low or the part in cold reset (R173, R175,
R176, R177). -/
def State.intlLow (s : State) : Bool := s.interruptCondition && s.resetLine == .released

/-! ## The host window -/

def planPhaseCode : PlanPhase → Nat
  | .openCold => 0
  | .openWarm => 1
  | .closed => 2

/-- The status byte as the state stands (R167, 12.3). -/
def State.statusByte (s : State) : Byte :=
  byteOf (128 * s.port.busy.toNat + 64 * s.interruptCondition.toNat + 16 * s.queueLevel + 4 * planPhaseCode s.plan.phase
    + 2 * s.disp.horn.toNat + s.port.overrun.toNat)

/-- The code and the data of a notice (R172, 12.3). -/
structure NoticeShown where
  kind : Byte
  data : NoticeData
  deriving DecidableEq, Repr

def shownZero (kind : Byte) : NoticeShown := { kind := kind, data := { first := 0, second := 0, third := 0 } }

/-- A call notice shows the tag and the attention set of the first call of its class (R23). -/
def State.callNotice (s : State) (kind : Byte) (cls : CallClass) : NoticeShown :=
  match s.firstAttention cls with
  | none => shownZero kind
  | some i => { kind := kind, data := { first := (s.tagOf i).byte
                                        second := (match s.call i with
                                          | some c => c.attention
                                          | none => 0)
                                        third := 0 } }

def State.noticeShown (s : State) : NoticeSource → NoticeShown
  | .restart => { kind := 1, data := { first := resetCauseByte s.port.resetCause, second := 0, third := 0 } }
  | .lineStuck => shownZero 2
  | .stopCall => s.callNotice 3 .stop
  | .lineEvent =>
    match s.line.lineEvent.event with
    | .clear => { kind := 5, data := { first := 2, second := 0, third := 0 } }
    | .hold => { kind := 4, data := { first := 1, second := 0, third := 0 } }
  | .tableFull =>
    { kind := 6, data := { first := (match s.calls.tableFull.origin with
                             | some o => originByte o
                             | none => 0)
                           second := byteOf s.calls.tableFull.count, third := 0 } }
  | .urgentCall => s.callNotice 7 .urgent
  | .unknownBadge =>
    let b := s.roster.unknownBadge.badge.getD 0
    { kind := 8, data := { first := hiByte b, second := loByte b, third := flagByte s.roster.unknownBadge.overrun } }
  | .queueHigh => shownZero 9
  | .routineCall => s.callNotice 10 .routine
  | .shiftCutDone =>
    { kind := 11, data := { first := byteOf s.roster.shiftCutDone.switched, second := byteOf s.roster.shiftCutDone.withdrawn,
                            third := byteOf s.roster.shiftCutDone.handedBack } }
  | .planAutoClosed => shownZero 12

/-- The kind and data that a read of 0x1B presents: those of the notice chosen, or NONE (R172). -/
def State.noticeToShow (s : State) : NoticeShown :=
  match s.nextNotice with
  | none => shownZero 0
  | some n => s.noticeShown n

/-- The byte a read cycle presents at each location (R166), 0 everywhere while the reset line is low (R175), and in the cold
reset, where the part takes no read (log 31). The reads of 0x19 and 0x1B change state besides: they are the commands
STATUS_READ and NOTICE_TAKE. -/
def windowRead (s : State) (loc : Fin 32) : Byte :=
  if s.resetLine != .released then 0
  else if h : loc.val < 24 then s.port.buffer[loc.val]
  else match loc.val with
    | 0x18 => s.port.code
    | 0x19 => s.statusByte
    | 0x1A => s.port.result.byte
    | 0x1B => s.noticeToShow.kind
    | 0x1C => s.port.noticeData.first
    | 0x1D => s.port.noticeData.second
    | 0x1E => s.port.noticeData.third
    | _ => s.port.mask

end Sys2Proof.Machine
end

