-- ==== Sys2Proof/Machine/SendQueue.lean ====
section
/-! DEFINITION. The Send Queue: its order, joining, coalescing, removal and displacement (R111–R115, R123), and what a displaced entry does at its owner (R90, R119). -/

namespace Sys2Proof.Machine

/-! ## Entries -/

/-- An entry as it joins: no attempt, no destination, not in flight (R111). -/
def Entry.fresh (content : EntryContent) (band : CallClass) : Entry :=
  { content := content, band := band, attempts := 0, dest := none, inFlight := false }

/-- A PAGE for a pair of tag and badge. -/
def Entry.isPage (tag : Tag) (badge : Badge) (e : Entry) : Bool :=
  match e.content with
  | .page p => p.tag == tag && p.badge == badge
  | .withdraw _ | .lamp _ _ => false

/-- A WITHDRAW for a pair of tag and badge. -/
def Entry.isWithdraw (tag : Tag) (badge : Badge) (e : Entry) : Bool :=
  match e.content with
  | .withdraw w => w.tag == tag && w.badge == badge
  | .page _ | .lamp _ _ => false

/-- A LAMP for a point. -/
def Entry.isLamp (p : Point) (e : Entry) : Bool :=
  match e.content with
  | .lamp q _ => q == p
  | .page _ | .withdraw _ => false

/-- A PAGE in ASSIGNED mode. -/
def Entry.isAssigned (e : Entry) : Bool :=
  match e.content with
  | .page p => p.mode == .assigned
  | .withdraw _ | .lamp _ _ => false

/-- An entry is pending while it is in the queue and not in flight (R111). -/
def Entry.pending (e : Entry) : Bool := !e.inFlight

def Entry.pendingPage (tag : Tag) (badge : Badge) (e : Entry) : Bool := e.pending && e.isPage tag badge
def Entry.pendingWithdraw (tag : Tag) (badge : Badge) (e : Entry) : Bool := e.pending && e.isWithdraw tag badge
def Entry.pendingLamp (p : Point) (e : Entry) : Bool := e.pending && e.isLamp p

/-- A pending entry of the ROUTINE band. -/
def Entry.pendingRoutine (e : Entry) : Bool := e.pending && e.band == .routine

/-! ## Order -/

/-- Taking a place at the tail of a band: after every entry of the same or a higher band (R112). -/
def joinTail (e : Entry) (q : List Entry) : List Entry :=
  q.takeWhile (fun x => classRank e.band ≤ classRank x.band) ++ e :: q.dropWhile (fun x => classRank e.band ≤ classRank x.band)

/-- The last entry of the queue's order that meets a test, and the queue without it: the youngest such entry (R114, R123). -/
def takeYoungest (p : Entry → Bool) : List Entry → Option (Entry × List Entry)
  | [] => none
  | e :: q =>
    match takeYoungest p q with
    | some (d, q') => some (d, e :: q')
    | none => if p e then some (e, q) else none

/-! ## Removal unsent (R115) -/

/-- The pending PAGE for a pair is removed unsent, if there is one. -/
def State.removePendingPage (s : State) (tag : Tag) (badge : Badge) : State :=
  s.setEntries (s.queue.entries.filter (fun e => !e.pendingPage tag badge))

/-- The pending PAGE in ASSIGNED mode for a pair is removed unsent, if there is one. -/
def State.removeAssignedPage (s : State) (tag : Tag) (badge : Badge) : State :=
  s.setEntries (s.queue.entries.filter (fun e => !(e.pendingPage tag badge && e.isAssigned)))

def State.hasPendingPage (s : State) (tag : Tag) (badge : Badge) : Bool :=
  s.queue.entries.any (fun e => e.pendingPage tag badge)

def State.hasAssignedPage (s : State) (tag : Tag) (badge : Badge) : Bool :=
  s.queue.entries.any (fun e => e.pendingPage tag badge && e.isAssigned)

def State.hasPageInFlight (s : State) (tag : Tag) (badge : Badge) : Bool :=
  s.queue.entries.any (fun e => e.inFlight && e.isPage tag badge)

/-! ## The end of an offer on both records -/

/-- An offer ends: the crew leaves the offeree set, its outstanding offer is cleared, and the history gains an entry
where the rule gives one (R12, R80, R81, R85, R89, R90). -/
def State.endOffer (s : State) (i : CallSlotNo) (k : CrewSlotNo) (outcome : Option OfferOutcome) : State :=
  (s.modCall i (fun c =>
    { c with
      offerees := c.offerees.filter (· ≠ k)
      history := match outcome with
        | some o => addHistory c.history { crew := k, outcome := o }
        | none => c.history })).modCrew k (fun c => { c with offer := none })

/-- A call whose offeree set is now empty becomes WAITING; otherwise it stays as it is (R39, R80, R81, R89, R90). -/
def State.waitIfNoOfferee (s : State) (i : CallSlotNo) : State :=
  match s.call i with
  | some c => if c.offerees.isEmpty then s.becomeWaiting i else s
  | none => s

/-- On a SINGLE rung the try is given back; on an ALL rung tries used is left (R77, R90). -/
def State.giveTryBack (s : State) (i : CallSlotNo) : State :=
  match (s.call i).bind s.rungOf with
  | some r =>
    match r.mode with
    | .single _ => s.modCall i (fun c => { c with triesUsed := c.triesUsed - 1 })
    | .all => s
  | none => s

/-- The offer a PAGE belongs to, if it still stands: the tag is current and its call is not FREE, and the badge is
enrolled in a slot of that call's offeree set (R89). -/
def State.standingOffer (s : State) (tag : Tag) (badge : Badge) : Option (CallSlotNo × CrewSlotNo) :=
  match s.resolve tag, s.enrolled badge with
  | .names c, some k => if c.offerees.contains k then some (tag.slot, k) else none
  | _, _ => none

/-! ## Displacement (R90, R114, R119, R123) -/

/-- What a displaced or refused entry does at its owner: a PAGE's standing offer ends without a WITHDRAW and gives its
try back, a LAMP's point becomes lamp-stale, a WITHDRAW is dropped; a PAGE in ASSIGNED mode changes no call. -/
def State.reportDisplaced (s : State) (e : Entry) : State :=
  match e.content with
  | .page p =>
    if p.mode = .assigned then s
    else match s.standingOffer p.tag p.badge with
      | some (i, k) => (((s.endOffer i k (some .withdrawn)).giveTryBack i).waitIfNoOfferee i)
      | none => s
  | .withdraw _ => s
  | .lamp p _ => s.setLampStale p true

/-- The youngest pending ROUTINE entry outside `keep` is displaced; nothing happens where there is none (R123). -/
def State.displaceOne (keep : Entry → Bool) (s : State) : State :=
  match takeYoungest (fun e => e.pendingRoutine && !keep e) s.queue.entries with
  | some (d, q) => (s.setEntries q).reportDisplaced d
  | none => s

/-- Displacement of a number of entries, youngest first (R123). -/
def State.displace (keep : Entry → Bool) : Nat → State → State
  | 0, s => s
  | n + 1, s => State.displace keep n (s.displaceOne keep)

/-- There is room for an ungated entry of a band (R114): a free position, or for a STOP entry a pending ROUTINE entry. -/
def State.hasRoom (s : State) (band : CallClass) : Bool :=
  s.queueCount < Config.queueLimit || (band == .stop && s.queue.entries.any Entry.pendingRoutine)

/-- The placing of an entry that must join (R114). -/
def State.place (s : State) (e : Entry) : State :=
  if s.queueCount < Config.queueLimit then s.setEntries (joinTail e s.queue.entries)
  else if e.band = .stop ∧ s.queue.entries.any Entry.pendingRoutine = true then
    let s' := s.displaceOne (fun _ => false)
    s'.setEntries (joinTail e s'.queue.entries)
  else s.reportDisplaced e

/-! ## Joining and coalescing (R113) -/

/-- A pending WITHDRAW for the same pair is superseded by a new PAGE (R113; log 9). -/
def State.supersedeWithdraw (s : State) (tag : Tag) (badge : Badge) : State :=
  s.setEntries (s.queue.entries.filter (fun e => !e.pendingWithdraw tag badge))

/-- A producer offers a PAGE: a pending one for the same pair is kept, otherwise it joins. -/
def State.offerPage (s : State) (p : Page) : State :=
  if s.hasPendingPage p.tag p.badge then s
  else (s.supersedeWithdraw p.tag p.badge).place (Entry.fresh (.page p) p.cls)

/-- A producer offers a WITHDRAW: it joins. -/
def State.offerWithdraw (s : State) (w : Withdraw) : State := s.place (Entry.fresh (.withdraw w) w.cls)

/-- The pending LAMP of a point, if there is one. -/
def State.pendingLampOf (s : State) (p : Point) : Option Entry := s.queue.entries.find? (fun e => e.pendingLamp p)

/-- A LAMP coalesces with the pending one of its point, `e`: that one is rewritten and keeps its place and attempt count, moving
to the tail of its band only when the band changes. -/
def coalesceLamp (p : Point) (states : LampStates) (band : CallClass) (e : Entry) (q : List Entry) : List Entry :=
  if e.band = band then q.map (fun x => if x.pendingLamp p then { x with content := .lamp p states } else x)
  else joinTail { e with content := .lamp p states, band := band } (q.filter (fun x => !x.pendingLamp p))

/-- A LAMP is offered: it coalesces with a pending one, and joins otherwise. -/
def State.offerLamp (s : State) (p : Point) (states : LampStates) (band : CallClass) : State :=
  match s.pendingLampOf p with
  | some e => s.setEntries (coalesceLamp p states band e s.queue.entries)
  | none => s.place (Entry.fresh (.lamp p states) band)

/-! ## Telling a pager (R12) -/

/-- The end of an offer whose pager is told (R12, R85): the offer ends on both records with an outcome; a pending PAGE is
removed unsent, and a WITHDRAW is queued unless that PAGE was removed and none is in flight. -/
def State.endOfferTelling (s : State) (i : CallSlotNo) (k : CrewSlotNo) (outcome : OfferOutcome) (reason : WithdrawReason) :
    State :=
  match s.call i, s.crew k with
  | some c, some cr =>
    let tag := s.tagOf i
    let unseen := s.hasPendingPage tag cr.badge && !s.hasPageInFlight tag cr.badge
    let s' := (s.endOffer i k (some outcome)).removePendingPage tag cr.badge
    if unseen then s' else s'.offerWithdraw { tag := tag, badge := cr.badge, reason := reason, cls := c.cls }
  | _, _ => s

/-- Withdrawing an offer (R12). -/
def State.withdrawOffer (s : State) (i : CallSlotNo) (k : CrewSlotNo) (reason : WithdrawReason) : State :=
  s.endOfferTelling i k .withdrawn reason

/-- A crew is an offeree of a call as it now stands. -/
def State.isOfferee (s : State) (i : CallSlotNo) (k : CrewSlotNo) : Bool :=
  match s.call i with
  | some c => c.offerees.contains k
  | none => false

/-- The offeree set of a call, in its order. -/
def State.offereesOf (s : State) (i : CallSlotNo) : List CrewSlotNo :=
  match s.call i with
  | some c => c.offerees
  | none => []

/-- The offers of a call to a list of crews end one after another, each only if it still stands (R12, R85). -/
def State.endOffersTelling (i : CallSlotNo) (outcome : OfferOutcome) (reason : WithdrawReason) :
    List CrewSlotNo → State → State
  | [], s => s
  | k :: ks, s =>
    State.endOffersTelling i outcome reason ks (if s.isOfferee i k then s.endOfferTelling i k outcome reason else s)

/-- Every offer of a call is withdrawn, in the order of the offeree set (R12). -/
def State.withdrawAll (s : State) (i : CallSlotNo) (reason : WithdrawReason) : State :=
  State.endOffersTelling i .withdrawn reason (s.offereesOf i) s

/-- A WITHDRAW is queued for a crew slot's badge (R14, R40, R87). -/
def State.tellHolder (s : State) (i : CallSlotNo) (k : CrewSlotNo) (reason : WithdrawReason) : State :=
  match s.call i, s.crew k with
  | some c, some cr => s.offerWithdraw { tag := s.tagOf i, badge := cr.badge, reason := reason, cls := c.cls }
  | _, _ => s

/-- A former holder is told: a pending ASSIGNED PAGE is removed unsent, and otherwise a WITHDRAW is queued (R40, R87;
log 10). -/
def State.tellFormerHolder (s : State) (i : CallSlotNo) (k : CrewSlotNo) (reason : WithdrawReason) : State :=
  match s.crew k with
  | some cr =>
    if s.hasAssignedPage (s.tagOf i) cr.badge then s.removeAssignedPage (s.tagOf i) cr.badge
    else s.tellHolder i k reason
  | none => s

end Sys2Proof.Machine
end

