-- ==== Sys2Proof/Machine/Lamps.lean ====
section
/-! DEFINITION. Lamp states and lamp updates (R13, R153, R154), and the end of an event: its lamp updates in order of point address, then the comparison of the throttled flag (R120). -/

namespace Sys2Proof.Machine

/-- The lamp state of a live call (R153). -/
def lampOfState : CallState → LampState
  | .waiting => .waiting
  | .offered => .paging
  | .accepted => .coming
  | .attending => .onSite
  | .unclaimed => .noCrew
  | .closed => .dark

/-- The live call of an origin and a trade; there is at most one (R7). -/
def State.liveCall (s : State) (o : Origin) (t : Trade) : Option CallSlotNo :=
  callSlots.find? (fun i => match s.call i with
    | some c => c.live && c.origin == o && c.trade == t
    | none => false)

/-- The lamp of one trade of a point: DARK without a live call (R153). -/
def State.lampFor (s : State) (p : Point) (t : Trade) : LampState :=
  match (s.liveCall (.point p) t).bind s.call with
  | some c => lampOfState c.state
  | none => .dark

def State.lampStates (s : State) (p : Point) : LampStates where
  electrical := s.lampFor p .electrical
  mechanical := s.lampFor p .mechanical
  hydraulic := s.lampFor p .hydraulic
  crane := s.lampFor p .crane

/-- The higher of two classes. -/
def maxClass (a b : CallClass) : CallClass := if classRank a < classRank b then b else a

/-- The highest class among the live calls of a point, or ROUTINE (R153). -/
def State.lampBand (s : State) (p : Point) : CallClass :=
  callSlots.foldl (fun b i => match s.call i with
    | some c => if c.live && c.origin == .point p then maxClass b c.cls else b
    | none => b) .routine

/-- A lamp update derives the states and the band and offers a LAMP (R154). -/
def State.lampUpdate (s : State) (p : Point) : State := s.offerLamp p (s.lampStates p) (s.lampBand p)

/-! ## Which points an event asks for (R13) -/

/-- What a lamp can show of a slot: the live call in it, by generation, origin, state and class. -/
def lampView (x : CallSlot) : Option (Fin 4 × Origin × CallState × CallClass) :=
  match x.call with
  | some c => if c.live then some (x.generation, c.origin, c.state, c.cls) else none
  | none => none

/-- The point whose lamps show a slot's live call, if it has one. -/
def lampPoint (x : CallSlot) : List Point :=
  match x.call with
  | some c => match c.origin with
    | .point p => if c.live then [p] else []
    | .desk _ => []
  | none => []

/-- The points whose calls an event made, moved to another state or class, or closed (R13). -/
def changedPoints (before after : State) : List Point :=
  callSlots.flatMap (fun i =>
    if lampView (before.slot i) = lampView (after.slot i) then []
    else lampPoint (before.slot i) ++ lampPoint (after.slot i))

/-- The point of lowest address in a list. -/
def lowestPoint : List Point → Option Point
  | [] => none
  | p :: ps =>
    match lowestPoint ps with
    | some q => some (if p.val ≤ q.val then p else q)
    | none => some p

/-- One lamp update for each point that the event asks for, in order of point address (R13, R154). An update may displace
a PAGE whose call then asks for an update of its own point, so the points asked for are looked at again after each
(log 8). Each round treats a point not yet done, so as many rounds as there are points reach them all. The answer holds the
points done. -/
def lampRounds (before : State) (extra : List Point) : Nat → List Point → State → State × List Point
  | 0, done, s => (s, done)
  | n + 1, done, s =>
    match lowestPoint ((extra ++ changedPoints before s).filter (fun p => !done.contains p)) with
    | none => (s, done)
    | some p => lampRounds before extra n (p :: done) (s.lampUpdate p)

/-- The derivation is made on the Call Table as the event leaves it (R153): the pending LAMPs of the points done show
the final states. -/
def State.refreshLamps (s : State) : List Point → State
  | [] => s
  | p :: ps =>
    State.refreshLamps
      (s.setEntries (s.queue.entries.map (fun x => if x.pendingLamp p then { x with content := .lamp p (s.lampStates p) } else x)))
      ps

def lampUpdates (before : State) (extra : List Point) (after : State) : State :=
  (lampRounds before extra 96 [] after).1.refreshLamps (lampRounds before extra 96 [] after).2

/-! ## The end of an event -/

/-- The throttled flag is compared once, on the count as the event leaves it, when the event changes the count (R120). -/
def throttleAtEnd (before after : State) : State :=
  if before.queueCount = after.queueCount then after else after.compareThrottle

/-- The end of an event that began at `before` and has left the records at `after`: its lamp updates, with those the rule
asks for besides the changes of calls (`extra`), and the comparison of the throttled flag. -/
@[irreducible] def settle (before : State) (extra : List Point) (after : State) : State :=
  throttleAtEnd before (lampUpdates before extra after)

end Sys2Proof.Machine
end

