-- ==== Sys2Proof/Machine/Calls.lean ====
section
/-! DEFINITION. The shared operations on calls: raising and merging (R6–R11), closing (R14), clamping (R64), pre-emption (R77), keys (R78–R83), expiries (R85–R88), hand-backs (R39, R40) and the resume pass (R180). -/

namespace Sys2Proof.Machine

/-! ## Raising a call -/

/-- The answers of the raise decision (R5). -/
inductive RaiseAnswer where
  | notReady | disabled | noLadder | full
  | merged (tag : Tag)
  | new (tag : Tag)
  deriving DecidableEq, Repr

/-- Tries and rung clamped to a ladder (R8, R64): a rung at or above the rung count goes to the last rung with tries used 0;
otherwise tries used above the tries of the rung go to those tries. -/
def Call.clampTo (l : Ladder) (c : Call) : Call :=
  match l.rungs[c.rung]? with
  | none => { c with rung := l.rungs.length - 1, triesUsed := 0 }
  | some r => { c with triesUsed := min c.triesUsed r.tries }

/-- The ladder restarted: rung and tries used go to 0. -/
def Call.restartLadder (c : Call) : Call := { c with rung := 0, triesUsed := 0 }

/-- A merge with a higher class upgrades the call (R8). The class is set first, so the withdrawals carry it (log 12). -/
def State.upgrade (s : State) (i : CallSlotNo) (cls : CallClass) : State :=
  let s1 := (s.modCall i (fun c => { c with cls := cls })).addAttention i .upgraded
  match s1.call i with
  | none => s1
  | some c =>
    match c.state with
    | .waiting => ((s1.modCall i Call.restartLadder).becomeWaiting i)
    | .offered => (((s1.withdrawAll i .preEmpted).modCall i Call.restartLadder).becomeWaiting i)
    | .unclaimed => ((s1.modCall i Call.restartLadder).becomeWaiting i).evalHorn
    | .accepted | .attending =>
      match s1.ladderOf c with
      | some l => s1.modCall i (Call.clampTo l)
      | none => s1
    | .closed => s1

/-- A raise merges into a live call (R7). -/
def State.merge (s : State) (i : CallSlotNo) (cls : CallClass) : State :=
  let s1 := s.modCall i (fun c => { c with raiseCount := saturate Config.raiseCountLimit c.raiseCount })
  match s1.call i with
  | some c => if classRank c.cls < classRank cls then s1.upgrade i cls else s1
  | none => s1

/-- The lowest-numbered FREE slot (R9). -/
def State.lowestFree (s : State) : Option CallSlotNo := callSlots.find? (fun i => (s.call i).isNone)

/-- The lowest-numbered CLOSED call whose reported flag is yes (R9). -/
def State.lowestReported (s : State) : Option CallSlotNo :=
  callSlots.find? (fun i => match s.call i with
    | some c => c.state == .closed && c.reported
    | none => false)

/-- The record of a new call (R10), its attention still to be added. -/
def newCall (o : Origin) (z : Zone) (t : Trade) (cls : CallClass) : Call where
  state := .waiting
  origin := o
  zone := z
  trade := t
  cls := cls
  raiseCount := 1
  rung := 0
  triesUsed := 0
  offerees := []
  history := []
  holder := none
  timer := { mode := .none, count := 0, expiryPending := false }
  hold := none
  unclaimedRounds := 0
  age := 0
  closeReason := none
  reported := false
  attention := 0

/-- A new call is made in a FREE slot: its generation advances, and it joins the attention queue and the dispatch list
(R3, R10). -/
def State.makeCall (s : State) (i : CallSlotNo) (c : Call) : State :=
  ((s.setSlot i { generation := (s.slot i).generation + 1, call := some c }).addAttention i .new).joinDispatch i

/-- A FULL refusal updates the TABLE FULL latch (R11). -/
def State.refuseFull (s : State) (o : Origin) : State :=
  { s with calls := { s.calls with
      tableFull := { latched := true, origin := some o, count := saturate Config.refusalCountLimit s.calls.tableFull.count } } }

/-- Step 5 of R6: a new call in the lowest FREE slot, else in a slot reclaimed from the lowest reported CLOSED call, else
FULL (R9). -/
def State.raiseNew (s : State) (o : Origin) (z : Zone) (t : Trade) (cls : CallClass) : State × RaiseAnswer :=
  match s.lowestFree with
  | some i => let s' := s.makeCall i (newCall o z t cls); (s', .new (s'.tagOf i))
  | none =>
    match s.lowestReported with
    | some i => let s' := (s.freeSlot i).makeCall i (newCall o z t cls); (s', .new (s'.tagOf i))
    | none => (s.refuseFull o, .full)

/-- Steps 3 to 5 of R6, for an origin whose zone is known. -/
def State.raiseInZone (s : State) (o : Origin) (z : Zone) (t : Trade) (cls : CallClass) : State × RaiseAnswer :=
  if (s.ladder t cls).isNone then (s, .noLadder)
  else match s.liveCall o t with
    | some i => (s.merge i cls, .merged (s.tagOf i))
    | none => s.raiseNew o z t cls

/-- The raise decision for a point (R6, R10): its zone is that of the plan's point table. An enabled point always has a
zone (R54; log 21). -/
def State.raiseFromPoint (s : State) (p : Point) (t : Trade) (cls : CallClass) : State × RaiseAnswer :=
  if s.plan.phase ≠ .closed then (s, .notReady)
  else match s.plan.points[p].enabled, s.plan.points[p].zone with
    | true, some z => s.raiseInZone (.point p) z t cls
    | _, _ => (s, .disabled)

/-- The raise decision for a desk (R6, R27). -/
def State.raiseFromDesk (s : State) (d : Fin 8) (z : Zone) (t : Trade) (cls : CallClass) : State × RaiseAnswer :=
  if s.plan.phase ≠ .closed then (s, .notReady) else s.raiseInZone (.desk d) z t cls

/-! ## Closing a call -/

/-- The record of a call as its close leaves it (R14). -/
def Call.close (reason : CloseReason) (c : Call) : Call :=
  { c.stopTimer with
    holder := none, hold := none, state := .closed, closeReason := some reason, reported := false }

/-- The holder of a call, if it has one. -/
def State.holderOf (s : State) (i : CallSlotNo) : Option CrewSlotNo := (s.call i).bind (·.holder)

/-- Closing a live call (R14); `byHolder` says that the close is the holder's own CLEAR. -/
def State.closeCall (s : State) (i : CallSlotNo) (reason : CloseReason) (byHolder : Bool) : State :=
  let sounded := match s.call i with
    | some c => c.sounds
    | none => false
  let s1 := s.withdrawAll i .closed
  let s2 := match s1.holderOf i with
    | some k => if byHolder then s1.modCrew k Crew.dropLoad else (s1.modCrew k Crew.dropLoad).tellHolder i k .closed
    | none => s1
  let s3 := ((s2.leaveDispatch i).modCall i (Call.close reason)).addAttention i .closed
  if sounded then s3.evalHorn else s3

/-! ## Pre-emption (R77) -/

/-- The crew's outstanding offer is pre-empted: the offer is withdrawn, the try given back on a SINGLE rung, and the victim
becomes WAITING when its offeree set is empty. -/
def State.preempt (s : State) (k : CrewSlotNo) : State :=
  match (s.crew k).bind (·.offer) with
  | some t => (((s.withdrawOffer t.slot k .preEmpted).giveTryBack t.slot).waitIfNoOfferee t.slot)
  | none => s

/-! ## Keys (R78–R83) -/

/-- The pending PAGE of a crew for a call is removed unsent (R115). -/
def State.removePageOf (s : State) (i : CallSlotNo) (k : CrewSlotNo) : State :=
  match s.crew k with
  | some cr => s.removePendingPage (s.tagOf i) cr.badge
  | none => s

/-- The crew becomes the holder and its load goes up by one; the call becomes ACCEPTED with attention TAKEN and its TRAVEL
timer, or none (R79, R92). -/
def State.takeCall (s : State) (i : CallSlotNo) (k : CrewSlotNo) : State :=
  let s1 := s.modCrew k (fun c => { c with load := c.load + 1 })
  let s2 := match s1.call i with
    | some c => s1.modCall i (fun c' => { (Call.loadTravel (s1.ladderOf c) c') with holder := some k, state := .accepted })
    | none => s1
  (s2.leaveDispatch i).addAttention i .taken

/-- Granting an offer (R79). The granted crew's pending PAGE (R115) is removed before the other offerees are told, which is the
model's choice (log 42). -/
def State.grant (s : State) (i : CallSlotNo) (k : CrewSlotNo) : State :=
  (((s.endOffer i k none).removePageOf i k).withdrawAll i .taken).takeCall i k

/-- An offer ends by the crew's own answer: DECLINE, or ACCEPT at the load limit (R80, R81). -/
def State.answerOffer (s : State) (i : CallSlotNo) (k : CrewSlotNo) (outcome : OfferOutcome) : State :=
  ((s.endOffer i k (some outcome)).removePageOf i k).waitIfNoOfferee i

/-- An ACCEPT, decided by the first case that applies (R78). -/
def State.acceptKey (s : State) (i : CallSlotNo) (k : CrewSlotNo) (c : Call) (load : Nat) : State × ReceiptCode :=
  if c.holder = some k then (s, .granted)
  else if c.offerees.contains k then
    if load < s.plan.loadLimit then (s.grant i k, .granted) else (s.answerOffer i k .loaded, .loaded)
  else if c.state = .accepted ∨ c.state = .attending then (s, .taken)
  else (s, .notOffered)

/-- A DECLINE (R81). -/
def State.declineKey (s : State) (i : CallSlotNo) (k : CrewSlotNo) (c : Call) : State × ReceiptCode :=
  if c.offerees.contains k then (s.answerOffer i k .declined, .done) else (s, .notOffered)

/-- An ON SITE (R82). -/
def State.onSiteKey (s : State) (i : CallSlotNo) (k : CrewSlotNo) (c : Call) : State × ReceiptCode :=
  if c.holder = some k then
    if c.state = .accepted then
      ((s.modCall i (fun c => { c.stopTimer with state := .attending })).addAttention i .onSite, .done)
    else (s, .done)
  else (s, .notHolder)

/-- A CLEAR (R83). -/
def State.clearKey (s : State) (i : CallSlotNo) (k : CrewSlotNo) (c : Call) : State × ReceiptCode :=
  if c.holder = some k then (s.closeCall i .cleared true, .done) else (s, .notHolder)

/-- The Dispatcher applies a key of an enrolled crew to a call that is not FREE (chapter 4.3). -/
def State.applyKey (s : State) (i : CallSlotNo) (k : CrewSlotNo) (key : Key) : State × ReceiptCode :=
  match s.call i, s.crew k with
  | some c, some cr =>
    match key with
    | .accept => s.acceptKey i k c cr.load
    | .decline => s.declineKey i k c
    | .onSite => s.onSiteKey i k c
    | .clear => s.clearKey i k c
  | _, _ => (s, .notOffered)

/-! ## Expiries (R85–R88) -/

/-- The expiry of an OFFER timer: every offeree lapses and the call becomes WAITING (R85). -/
def State.offerExpires (s : State) (i : CallSlotNo) : State :=
  (State.endOffersTelling i .lapsed .lapsed (s.offereesOf i) s).becomeWaiting i

/-- The rung after a reclaim (R87): one higher with tries used 0, or the last rung with its tries spent. -/
def Call.reclaimRung (l : Option Ladder) (c : Call) : Call :=
  match l with
  | none => c
  | some l =>
    if c.rung + 1 < l.rungs.length then { c with rung := c.rung + 1, triesUsed := 0 }
    else match l.rungs[c.rung]? with
      | some r => { c with triesUsed := r.tries }
      | none => c

/-- Reclaim takes an overdue call from its holder (R87). -/
def State.reclaimHolder (s : State) (i : CallSlotNo) (k : CrewSlotNo) : State :=
  let s1 := (s.modCrew k Crew.dropLoad).tellFormerHolder i k .reclaimed
  match s1.call i with
  | none => s1
  | some c =>
    ((s1.modCall i (fun c' => { (c'.reclaimRung (s1.ladderOf c)) with
        holder := none, history := addHistory c'.history { crew := k, outcome := .lapsed } })).addAttention i .handedBack).becomeWaiting i

/-- The expiry of a TRAVEL timer: OVERDUE is added; the reclaim flag of the ladder decides the rest (R86). -/
def State.travelExpires (s : State) (i : CallSlotNo) : State :=
  let s1 := s.addAttention i .overdue
  match s1.call i with
  | none => s1
  | some c =>
    let reclaim := match s1.ladderOf c with
      | some l => l.reclaim
      | none => false
    match reclaim, c.holder with
    | true, some k => s1.reclaimHolder i k
    | _, _ => s1.modCall i Call.stopTimer

/-- The expiry of a RETRY timer: the ladder starts again with an empty history; a STOP call's horn is evaluated (R88). -/
def State.retryExpires (s : State) (i : CallSlotNo) : State :=
  let s1 := (s.modCall i (fun c => { c.restartLadder with history := [] })).becomeWaiting i
  match s1.call i with
  | some c => if c.cls = .stop then s1.evalHorn else s1
  | none => s1

/-- The expiry of the timer's mode (R100, R101). -/
def State.timerExpires (s : State) (i : CallSlotNo) (mode : TimerMode) : State :=
  match mode with
  | .offer => s.offerExpires i
  | .travel => s.travelExpires i
  | .retry => s.retryExpires i
  | .none => s

/-! ## Going off duty (R39, R40) -/

/-- A crew's outstanding offer is withdrawn with reason HANDOVER, and its call becomes WAITING when no offeree is left
(R39). -/
def State.withdrawForHandover (s : State) (k : CrewSlotNo) : State :=
  match (s.crew k).bind (·.offer) with
  | some t => (s.withdrawOffer t.slot k .handover).waitIfNoOfferee t.slot
  | none => s

/-- One ACCEPTED call of a crew is handed back (R40). -/
def State.handBack (k : CrewSlotNo) (i : CallSlotNo) (s : State) : State :=
  let s1 := (s.modCrew k Crew.dropLoad).tellFormerHolder i k .handover
  ((s1.modCall i (fun c =>
    { c with holder := none, triesUsed := 0, history := addHistory c.history { crew := k, outcome := .handedBack } })).addAttention
      i .handedBack).becomeWaiting i

/-- The slots of the ACCEPTED calls a crew holds, in order of call slot (R40). -/
def State.acceptedCalls (s : State) (k : CrewSlotNo) : List CallSlotNo :=
  callSlots.filter (fun i => match s.call i with
    | some c => c.holder == some k && c.state == .accepted
    | none => false)

/-- A crew goes OFF: its offer is withdrawn, then its ACCEPTED calls are handed back (R38, R160). -/
def State.goOff (s : State) (k : CrewSlotNo) : State :=
  let s1 := (s.modCrew k (fun c => { c with duty := .off })).withdrawForHandover k
  (s1.acceptedCalls k).foldl (fun s i => s.handBack k i) s1

/-! ## The close of a warm plan (R67, R180) -/

/-- The resume pass at one call: a RESTART hold is removed, and the call is treated by its state (R180). -/
def State.resumeCall (s : State) (i : CallSlotNo) : State :=
  match s.call i with
  | none => s
  | some c =>
    if c.hold ≠ some .restart then s
    else
      let s1 := s.modCall i (fun c => { c with hold := none })
      match c.state with
      | .waiting => s1.joinDispatch i
      | .accepted => s1.modCall i (Call.loadTravel (s1.ladderOf c))
      | .unclaimed =>
        match s1.ladderOf c with
        | some l => s1.modCall i (fun c => c.loadTimer .retry l.retry)
        | none => s1
      | .offered | .attending | .closed => s1

/-- The resume pass over all slots, and the horn (R180). -/
def State.resumePass (s : State) : State := (callSlots.foldl State.resumeCall s).evalHorn

/-- The points with a live call (R180). -/
def State.livePoints (s : State) : List Point := callSlots.flatMap (fun i => lampPoint (s.slot i))

/-- The close of a warm plan: the count stops, the plan becomes CLOSED and the resume pass runs (R67). -/
def State.closeWarm (s : State) : State :=
  { s with plan := { s.plan with phase := .closed, autoClose := none } }.resumePass

end Sys2Proof.Machine
end

