-- ==== Sys2Proof/Machine/BayLine.lean ====
section
/-! DEFINITION. The bay line: LINE_IDLE, DOMINANT_EDGE, FRAME_SEND_START and the endings of an attempt, RECEIPT_ECHO_MISMATCH, and the hold monitor (chapters 6.3, 6.4 and 7). -/

namespace Sys2Proof.Machine

/-! ## Idle and the frames of other nodes -/

/-- LINE_IDLE (R126, R129): the line of a BUSY controller becomes idle; not while a frame of its own is on the line or waits
for its receipt. -/
def execLineIdle (s : State) : Host.Outcome State Fault Refusal :=
  if s.resetLine ≠ .released then .next s
  else match s.line.state with
    | .busy .waitingForIdle | .busy .frameOver | .busy .receiving | .busy (.drivingReceipt _) => .next (s.setLineState .idle)
    | .busy (.sending _) | .busy .receiptWindow | .silent | .idle | .held | .stuck => .next s

/-- DOMINANT_EDGE (R129, R130): on an idle line a frame of another node begins. -/
def execDominantEdge (s : State) : Host.Outcome State Fault Refusal :=
  if s.resetLine = .released ∧ s.line.state = .idle then .next (s.setLineState (.busy .receiving)) else .next s

/-! ## Taking an entry for sending (R116, R130, R151) -/

/-- A crew is paged through the beacon of its last-seen zone when it is reachable, that zone's beacon is fitted, and its
flag is set; otherwise through address 0 (R116). -/
def State.route (s : State) (b : Badge) : Addr :=
  match (s.enrolled b).bind s.crew with
  | none => Config.allBeaconsAddress
  | some c =>
    match c.lastSeen with
    | some z => if s.reachable c && s.plan.zones[z].beacon && s.line.answering[z] then Zone.beacon z else Config.allBeaconsAddress
    | none => Config.allBeaconsAddress

/-- The destination of an entry, decided at each taking (R116). -/
def State.destinationOf (s : State) (e : Entry) : Addr :=
  match e.content with
  | .page p => s.route p.badge
  | .withdraw w => s.route w.badge
  | .lamp p _ => Point.addr p

/-- The frame of an entry and a destination (R151, R154): class the entry's band, source 1, receipt wanted unless it goes to
address 0. -/
def entryFrame (e : Entry) (dest : Addr) : Frame :=
  let wanted := dest != Config.allBeaconsAddress
  match e.content with
  | .page p => Frame.make e.band .page wanted Config.headAddress dest (pageBody p)
  | .withdraw w => Frame.make e.band .withdraw wanted Config.headAddress dest (withdrawBody w)
  | .lamp _ l => Frame.make e.band .lamp wanted Config.headAddress dest (lampBody l)

/-- FRAME_SEND_START (R130): in IDLE the first entry is taken, its destination is decided, and its frame is on the line. -/
def execFrameSendStart (s : State) : Host.Outcome State Fault Refusal :=
  if s.resetLine = .released ∧ s.line.state = .idle then
    match s.queue.entries with
    | [] => .next s
    | e :: q =>
      let d := s.destinationOf e
      .next ((s.setEntries ({ e with dest := some d, inFlight := true } :: q)).setLineState (.busy (.sending (entryFrame e d))))
  else .next s

/-! ## Endings of an attempt (R117–R119) -/

/-- The TF6448 drives a frame. -/
def State.sending (s : State) : Bool :=
  s.resetLine == .released && (match s.line.state with
    | .busy (.sending _) => true
    | .busy .waitingForIdle | .busy .frameOver | .busy .receiving | .busy .receiptWindow | .busy (.drivingReceipt _)
    | .silent | .idle | .held | .stuck => false)

/-- The TF6448 waits for the receipt of its frame, or reads it (R133). -/
def State.inWindow (s : State) : Bool :=
  s.resetLine == .released && (match s.line.state with
    | .busy .receiptWindow => true
    | .busy .waitingForIdle | .busy .frameOver | .busy .receiving | .busy (.sending _) | .busy (.drivingReceipt _)
    | .silent | .idle | .held | .stuck => false)

/-- The attempt of the entry in flight ends in its receipt window (R133): the records `t` that the ending leaves, with the line
after the frame. Outside the window there is no such ending. -/
def State.endWindow (s t : State) : State := if s.inWindow then t.setLineState (.busy .frameOver) else s

/-- The entry in flight. -/
def State.inFlight (s : State) : Option Entry := s.queue.entries.find? (fun e => e.inFlight)

/-- An entry that has left flight without an attempt. -/
def Entry.land (e : Entry) : Entry := { e with inFlight := false }

/-- A pending entry that R112 does not let stand beside this one once both are pending: a PAGE of the same tag and badge, or
a LAMP of the same point. -/
def Entry.twin (e x : Entry) : Bool :=
  match e.content with
  | .page p => x.pendingPage p.tag p.badge
  | .withdraw _ => false
  | .lamp p _ => x.pendingLamp p

/-- The entry in flight leaves flight without an attempt and stands again at its place (R117). Where a second entry for the same
pair or point stands pending, R112 allows one of the two, and the second coalesces with the landed one as R113 has an entry
coalesce that is offered beside a pending one: a PAGE is kept as it is and makes no second entry, a LAMP takes the second
one's states and band (log 34). -/
def landEntries (q : List Entry) : List Entry :=
  match q.find? (fun e => e.inFlight) with
  | none => q
  | some e =>
    let landed := (q.filter (fun y => !e.twin y)).map Entry.land
    match q.find? e.twin with
    | none => landed
    | some x =>
      match x.content with
      | .lamp p states => coalesceLamp p states x.band e.land landed
      | .page _ | .withdraw _ => landed

/-- The entry in flight lands, and the throttled flag is compared where the count has changed (R112, R117, R120). -/
def State.landAll (s : State) : State := throttleAtEnd s (s.setEntries (landEntries s.queue.entries))

/-- The entry in flight is removed from the queue. -/
def State.removeInFlight (s : State) : State := s.setEntries (s.queue.entries.filter (fun e => !e.inFlight))

/-- The outcome DELIVERED or SENT at the owner (R119): a delivered LAMP clears its point's lamp-stale flag (R155), and makes no
lamp update by that (log 39); a PAGE and a WITHDRAW change nothing (R89). -/
def State.reportDelivered (s : State) (e : Entry) : State :=
  match e.content with
  | .page _ | .withdraw _ => s
  | .lamp p _ => s.setLampStale p false

/-- The outcome UNDELIVERED at the owner (R89, R119, R155). -/
def State.reportUndelivered (s : State) (e : Entry) : State :=
  match e.content with
  | .page p =>
    if s.hasPendingPage p.tag p.badge then s
    else match s.standingOffer p.tag p.badge with
      | some (i, k) => (s.endOffer i k (some .undelivered)).waitIfNoOfferee i
      | none => s
  | .withdraw _ => s
  | .lamp p _ => s.setLampStale p true

/-- The endings that count as a failed attempt (R117): no receipt or one with a bad check, NO ROOM, a bit fault. -/
inductive FailedEnding where
  | noReceipt | noRoom | bitFault
  deriving DecidableEq, Repr

/-- A final attempt without a good receipt clears the beacon-answering flag of the zone it went to, for a PAGE or a WITHDRAW
(R118). -/
def State.clearAnswering (s : State) (e : Entry) (ending : FailedEnding) : State :=
  match e.content with
  | .lamp _ _ => s
  | .page _ | .withdraw _ =>
    match ending, e.dest.bind Zone.ofBeacon with
    | .noReceipt, some z => s.setAnswering z false
    | _, _ => s

/-- A newer pending entry supersedes an entry whose attempt failed (R118). -/
def superseded (rest : List Entry) (e : Entry) : Bool :=
  match e.content with
  | .page p => rest.any (fun x => x.pendingWithdraw p.tag p.badge || x.pendingPage p.tag p.badge)
  | .withdraw w => rest.any (fun x => x.pendingPage w.tag w.badge)
  | .lamp p _ => rest.any (fun x => x.pendingLamp p)

/-- A failed attempt (R118): at the attempt limit the entry is removed UNDELIVERED; otherwise it is removed when a newer entry
supersedes it, and else moves to the tail of its band. -/
def State.failAttempt (s : State) (ending : FailedEnding) : State :=
  match s.inFlight with
  | none => s
  | some e =>
    let s1 := s.removeInFlight
    let e1 := { e with attempts := e.attempts + 1, inFlight := false }
    if s.plan.attemptLimit ≤ e.attempts + 1 then (s1.clearAnswering e ending).reportUndelivered e
    else if superseded s1.queue.entries e then s1
    else s1.setEntries (joinTail e1 s1.queue.entries)

/-- A good receipt other than NO ROOM, or a frame to address 0 sent to its end: the entry is removed and its outcome reported
(R117). -/
def State.deliver (s : State) : State :=
  match s.inFlight with
  | none => s
  | some e => s.removeInFlight.reportDelivered e

/-! ## Mismatches while sending (R131, R132) -/

/-- What a mismatch is: an overdriven one in the arbitration field is an arbitration loss and outside it a bit fault; an
underdriven one is taken by the echo policy (R132). -/
def mismatchIsLoss (policy : EchoPolicy) (m : Mismatch) : Bool :=
  match m.kind, policy with
  | .overdriven, _ => m.inArbitrationField
  | .underdriven, .arbitrationLoss => true
  | .underdriven, .lineFault => false

/-- ARBITRATION_LOSS (R131, R132): the entry leaves flight without an attempt; inside the arbitration field the TF6448 receives
the rest of the frame, outside it there is no frame to receive. -/
def execArbitrationLoss (mismatch : Mismatch) (s : State) : Host.Outcome State Fault Refusal :=
  if s.sending ∧ mismatchIsLoss s.line.settings.echo mismatch = true then
    .next (s.landAll.setLineState (.busy (if mismatch.inArbitrationField then .receiving else .waitingForIdle)))
  else .next s

/-- BIT_FAULT (R132): a failed attempt, and one send fault (R140). -/
def execBitFault (mismatch : Mismatch) (s : State) : Host.Outcome State Fault Refusal :=
  if s.sending ∧ mismatchIsLoss s.line.settings.echo mismatch = false then
    .next ((settle s [] (s.failAttempt .bitFault)).countSendFault.setLineState (.busy .waitingForIdle))
  else .next s

/-! ## The end of a frame sent (R133) -/

/-- The frame in flight wants no receipt: it goes to address 0 (R130). -/
def State.sendsToAll (s : State) : Bool := s.inFlight.bind (·.dest) == some Config.allBeaconsAddress

/-- FRAME_SENT (R133): the frame has been driven to the last cell of its check byte. A frame to address 0 has ended; one that
wants a receipt opens the receipt window (log 40). -/
def execFrameSent (s : State) : Host.Outcome State Fault Refusal :=
  if s.sending then
    if s.sendsToAll then .next ((settle s [] s.deliver).setLineState (.busy .frameOver))
    else .next (s.setLineState (.busy .receiptWindow))
  else .next s

/-- The event of an attempt that ends without a good receipt: no receipt, or one with a bad check (R117, R133). -/
def State.endUnreceipted (s : State) : State := settle s [] (s.failAttempt .noReceipt)

/-- RECEIPT_TAKEN (R133, R152): a good receipt delivers the entry, or with NO ROOM fails the attempt; a receipt with a bad
check is treated as no receipt (R117). -/
def execReceiptTaken (receipt : HeardReceipt) (s : State) : Host.Outcome State Fault Refusal :=
  .next (s.endWindow (
    if receipt.good then settle s [] (if receipt.code = noRoomCode then s.failAttempt .noRoom else s.deliver)
    else s.endUnreceipted))

/-- NO_RECEIPT (R133). -/
def execNoReceipt (s : State) : Host.Outcome State Fault Refusal :=
  .next (s.endWindow s.endUnreceipted)

/-- RECEIPT_ECHO_MISMATCH (R136): the receipt that the TF6448 drives ends and one send fault is counted. In its own receipt
window it drives nothing and there is no echo check (R133). -/
def execReceiptEchoMismatch (s : State) : Host.Outcome State Fault Refusal :=
  if s.resetLine ≠ .released then .next s
  else match s.line.state with
    | .busy (.drivingReceipt _) => .next (s.countSendFault.setLineState (.busy .waitingForIdle))
    | .busy .waitingForIdle | .busy .frameOver | .busy .receiving | .busy (.sending _) | .busy .receiptWindow
    | .silent | .idle | .held | .stuck => .next s

/-! ## The hold monitor (R137, R138) -/

/-- The LINE STUCK latch is set. -/
def State.setLineStuck (s : State) : State := { s with line := { s.line with lineStuck := true } }

/-- The count of 4 s marks of the hold. -/
def State.setHoldMarks (s : State) (n : Nat) : State := { s with line := { s.line with holdMarks := n } }

/-- LINE_HOLD (R137): every frame and receipt in progress is aborted, the entry in flight lands, the line state
becomes HELD and the line-event latch is set with HOLD. -/
def execLineHold (s : State) : Host.Outcome State Fault Refusal :=
  if s.resetLine ≠ .released then .next s
  else match s.line.state with
    | .idle | .busy _ => .next (((s.landAll.setLineState .held).setHoldMarks 0).latchLineEvent .hold)
    | .silent | .held | .stuck => .next s

/-- LINE_HOLD_REPEAT (R138): at each 4 s mark of a hold; the marks at 4 s and 8 s come before STUCK, those from 12 s after
it (log 7). -/
def execLineHoldRepeat (s : State) : Host.Outcome State Fault Refusal :=
  if s.resetLine = .released ∧ ((s.line.state = .held ∧ s.line.holdMarks < 2) ∨ s.line.state = .stuck) then
    .next ((s.setHoldMarks (s.line.holdMarks + 1)).latchLineEvent .hold)
  else .next s

/-- LINE_STUCK (R138): a hold that has lasted 10 s. -/
def execLineStuck (s : State) : Host.Outcome State Fault Refusal :=
  if s.resetLine = .released ∧ s.line.state = .held then
    .next (((s.setHoldMarks (max 2 s.line.holdMarks)).setLineState .stuck).setLineStuck)
  else .next s

/-- LINE_CLEAR (R138): the hold ends, the line is IDLE, and the line-event latch is set with CLEAR. -/
def execLineClear (s : State) : Host.Outcome State Fault Refusal :=
  if s.resetLine = .released ∧ (s.line.state = .held ∨ s.line.state = .stuck) then
    .next (((s.setLineState .idle).setHoldMarks 0).latchLineEvent .clear)
  else .next s

end Sys2Proof.Machine
end

