-- ==== Sys2Proof/Machine/HostPort.lean ====
section
/-! DEFINITION. The Host Port: the command cycle (R168, R169), the bus cycles that change state (R166, R167, R172, R173), and the commands of the port itself, LINE_STATE (R174), UNKNOWN_COMMAND (R168) and SILENCE_HORN (R96). -/

namespace Sys2Proof.Machine

/-! ## Completion (R168) -/

/-- What a command does at its completion: the records, the result code, the answer bytes, and the points whose lamp update
is asked for besides the changes of calls. -/
structure CommandEffect where
  state : State
  result : ResultCode
  answer : List Byte
  lamps : List Point
  deriving DecidableEq, Repr

/-- A refused command changes no record and has no answer (R168, R170). -/
def refuseWith (s : State) (r : ResultCode) : CommandEffect := { state := s, result := r, answer := [], lamps := [] }

/-- A command carried out with an answer. -/
def okWith (s : State) (answer : List Byte) : CommandEffect := { state := s, result := .ok, answer := answer, lamps := [] }

/-- The buffer rewritten by a completion: the answer from 0x00, then zeros (R168). -/
@[irreducible] def answerBuffer (answer : List Byte) : Vector Byte 24 := Vector.ofFn (fun n : Fin 24 => answer.getD n.val 0)

/-- Completion: the buffer is rewritten, the result is written and the port becomes READY (R168). -/
def State.complete (s : State) (r : ResultCode) (answer : List Byte) : State :=
  { s with port := { s.port with buffer := answerBuffer answer, result := r, busy := false } }

/-- A command with this code has been taken and waits for its completion; a walk in progress holds its SHIFT CUT open
(R158, R168). -/
def State.commandDue (s : State) (code : Byte) : Bool :=
  s.resetLine == .released && s.port.busy && s.port.code == code && s.roster.walk.progress == .idle

/-- The completion of a command as one event at its owning block (R168). -/
def runCommand (command : HostCommand) (effect : State → CommandEffect) (s : State) : Host.Outcome State Fault Refusal :=
  if s.commandDue command.code then
    let e := effect s
    .next ((settle s e.lamps e.state).complete e.result e.answer)
  else .next s

/-- COMMAND_TAKEN (R168, R169): a write to 0x18 is taken as a command in READY, and sets COMMAND OVERRUN in BUSY. -/
def execCommandTaken (value : Byte) (s : State) : Host.Outcome State Fault Refusal :=
  if s.resetLine ≠ .released then .next s
  else if s.port.busy then .next { s with port := { s.port with overrun := true } }
  else .next { s with port := { s.port with busy := true, code := value } }

/-- UNKNOWN_COMMAND (R168): a code that names no command completes with an empty answer and reaches no block. -/
def execUnknownCommand (s : State) : Host.Outcome State Fault Refusal :=
  if s.commandDue s.port.code ∧ namesCommand s.port.code = false then .next (s.complete .unknownCommand [])
  else .next s

/-! ## Bus cycles -/

/-- BUFFER_WRITE (R169). -/
def execBufferWrite (loc : BufferLoc) (value : Byte) (s : State) : Host.Outcome State Fault Refusal :=
  if s.resetLine ≠ .released then .next s
  else if s.port.busy then .next { s with port := { s.port with overrun := true } }
  else .next { s with port := { s.port with buffer := s.port.buffer.set loc value } }

/-- IGNORED_WRITE (R166): nothing changes and no flag is set. -/
def execIgnoredWrite (_loc : BitVec 5) (_value : Byte) (s : State) : Host.Outcome State Fault Refusal := .next s

/-- A read cycle: 0 is presented while the reset line is low (R175), and no read is taken in the cold reset (R176). -/
def readCycle (taken : State → State) (s : State) : Host.Outcome State Fault Refusal :=
  match s.resetLine with
  | .released => .next (taken s)
  | .low | .lowSincePowerOn => .next { s with port := { s.port with dataLines := some 0 } }
  | .coldReset => .next s

/-- STATUS_READ (R167): the status byte is presented as it stands, and COMMAND OVERRUN is cleared. -/
def execStatusRead (s : State) : Host.Outcome State Fault Refusal :=
  readCycle (fun s => { s with port := { s.port with overrun := false, dataLines := some s.statusByte } }) s

/-- NOTICE_MASK_WRITE (R173): the whole mask is replaced, in either port state. -/
def execNoticeMaskWrite (value : Byte) (s : State) : Host.Outcome State Fault Refusal :=
  if s.resetLine ≠ .released then .next s
  else .next { s with port := { s.port with mask := value } }

/-! ## Notices (R172) -/

/-- The taking of a call's attention (R23): the set is cleared, the call leaves the queue, and a set that contained CLOSED
makes the call reported. -/
def State.takeAttention (s : State) (i : CallSlotNo) : State :=
  (s.modCall i (fun c =>
    { c with attention := 0, reported := c.reported || (c.attention &&& AttentionReason.closed.bit) != 0 })).setAttentionQueue
      (s.calls.attentionQueue.filter (· ≠ i))

/-- The taking of the call notice of a class. -/
def State.takeCallNotice (s : State) (cls : CallClass) : State :=
  match s.firstAttention cls with
  | some i => s.takeAttention i
  | none => s

/-- The source of a notice clears it as its own rule states (R11, R23, R49, R68, R120, R138, R163). -/
def State.clearNotice (s : State) : NoticeSource → State
  | .restart => { s with port := { s.port with restart := false } }
  | .lineStuck => { s with line := { s.line with lineStuck := false } }
  | .stopCall => s.takeCallNotice .stop
  | .lineEvent => { s with line := { s.line with lineEvent := { s.line.lineEvent with latched := false } } }
  | .tableFull => { s with calls := { s.calls with tableFull := { s.calls.tableFull with latched := false, count := 0 } } }
  | .urgentCall => s.takeCallNotice .urgent
  | .unknownBadge =>
    { s with roster := { s.roster with unknownBadge := { s.roster.unknownBadge with latched := false, overrun := false } } }
  | .queueHigh => { s with queue := { s.queue with queueHigh := false } }
  | .routineCall => s.takeCallNotice .routine
  | .shiftCutDone => { s with roster := { s.roster with shiftCutDone := { s.roster.shiftCutDone with latched := false } } }
  | .planAutoClosed => { s with plan := { s.plan with autoClosed := false } }

/-- The source of the notice chosen clears it; nothing changes when no notice is chosen. -/
def State.clearChosen (s : State) : State :=
  match s.nextNotice with
  | some n => s.clearNotice n
  | none => s

/-- The taking of a notice (R172): the kind is presented, the data are written into 0x1C–0x1E, and the source clears it. -/
def State.takeNotice (s : State) : State :=
  let s1 := s.clearChosen
  { s1 with port := { s1.port with noticeData := s.noticeToShow.data, dataLines := some s.noticeToShow.kind } }

/-- NOTICE_TAKE (R172). -/
def execNoticeTake (s : State) : Host.Outcome State Fault Refusal := readCycle State.takeNotice s

/-! ## SILENCE_HORN and LINE_STATE -/

/-- R96: the silenced flag is set, so the horn output goes off; the answer holds the output as it stood. -/
def silenceHornEffect (s : State) : CommandEffect :=
  okWith { s with disp := { s.disp with silenced := true } }.evalHorn [flagByte s.disp.horn]

/-- SILENCE_HORN (R96). -/
def execSilenceHorn (s : State) : Host.Outcome State Fault Refusal := runCommand .silenceHorn silenceHornEffect s

/-- The beacon-answering flags of eight zones, the lowest zone in bit 7 (12.4). -/
def State.answeringByte (s : State) (from0 : Nat) : Byte :=
  byteOfBits (((List.finRange 16).drop from0 |>.take 8).map (fun z => s.line.answering[z]))

/-- R174: the answer, with the error counts as they stood, and both counts set to 0 (R140). -/
def lineStateEffect (s : State) : CommandEffect :=
  okWith { s with line := { s.line with receiveErrors := 0, sendFaults := 0 } }
    [lineStateCode s.line.state, s.answeringByte 0, s.answeringByte 8, byteOf s.line.receiveErrors, byteOf s.line.sendFaults,
     resetCauseByte s.port.resetCause]

/-- LINE_STATE (R174). -/
def execLineState (s : State) : Host.Outcome State Fault Refusal := runCommand .lineState lineStateEffect s

end Sys2Proof.Machine
end

