-- ==== Sys2Proof/Machine/CallCommands.lean ====
section
/-! DEFINITION. The call commands: HOST_RAISE, READ_CALL, FIND_CALLS, HOLD, RESUME, CLOSE_CALL, RETIRE (chapter 1) and ASSIGN, ESCALATE, REPAGE (chapter 4.6). -/

namespace Sys2Proof.Machine

/-- The tag argument in byte 0: every value is a tag (R24). -/
def State.argTag (s : State) : Tag := Tag.ofByte (s.arg 0)

/-- Checks 1 to 3 of R24 for a command with a tag argument: the plan where the command needs it closed, the fields, the tag;
then the command's own rule on the call named. -/
def onCall (needsClosed fieldsOk : Bool) (s : State) (body : CallSlotNo → Call → CommandEffect) : CommandEffect :=
  if needsClosed ∧ s.plan.phase ≠ .closed then refuseWith s .planOpen
  else if !fieldsOk then refuseWith s .badField
  else match s.resolve s.argTag with
    | .stale => refuseWith s .stale
    | .vacant => refuseWith s .noSuch
    | .names c => body s.argTag.slot c

/-! ## HOST_RAISE (R27) -/

/-- The result and the answer of a raise decision for a desk (R27). -/
def raiseResult (s : State) : RaiseAnswer → CommandEffect
  | .notReady => refuseWith s .planOpen
  | .disabled => refuseWith s .noSuch
  | .noLadder => refuseWith s .noSuch
  | .full => refuseWith s .full
  | .merged t => { state := s, result := .merged, answer := [t.byte], lamps := [] }
  | .new t => { state := s, result := .new, answer := [t.byte], lamps := [] }

/-- R27. -/
def hostRaiseEffect (s : State) : CommandEffect :=
  if s.plan.phase ≠ .closed then refuseWith s .planOpen
  else match readDesk (s.arg 0).toNat, readZone (s.arg 1).toNat, readTrade (s.arg 2).toNat, readClass (s.arg 3).toNat with
    | some d, some z, some t, some c =>
      let r := s.raiseFromDesk d z t c
      raiseResult r.1 r.2
    | _, _, _, _ => refuseWith s .badField

/-- HOST_RAISE (R27). -/
def execHostRaise (s : State) : Host.Outcome State Fault Refusal := runCommand .hostRaise hostRaiseEffect s

/-! ## READ_CALL and FIND_CALLS (R25, R26) -/

/-- R25. -/
def readCallEffect (s : State) : CommandEffect := onCall false true s (fun i c => okWith s (callAnswer (s.tagOf i) c))

/-- READ_CALL (R25). -/
def execReadCall (s : State) : Host.Outcome State Fault Refusal := runCommand .readCall readCallEffect s

/-- The filter of FIND CALLS (R26); an absent field matches any call. -/
structure CallFilter where
  states : Byte
  trade : Option Trade
  cls : Option CallClass
  origin : Option Origin
  badge : Option Badge
  start : CallSlotNo
  deriving DecidableEq, Repr

/-- An argument that is absent at one code, and otherwise must name a value. -/
def readOrAny {α : Type} (any : Byte) (f : Nat → Option α) (b : Byte) : Option (Option α) :=
  if b = any then some none else (f b.toNat).map some

/-- The arguments of FIND CALLS (R26, 12.4). -/
def readFilter (s : State) : Option CallFilter :=
  match readOrAny 0xFF readTrade (s.arg 1), readOrAny 0xFF readClass (s.arg 2), readOrAny 0 readOrigin (s.arg 3),
    (if word16 (s.arg 4) (s.arg 5) = 0 then some none else (readBadge (s.arg 4) (s.arg 5)).map some) with
  | some t, some c, some o, some b =>
    if h : (s.arg 6).toNat < 64 then
      some { states := s.arg 0, trade := t, cls := c, origin := o, badge := b, start := ⟨(s.arg 6).toNat, h⟩ }
    else none
  | _, _, _, _ => none

/-- The state set: bit n for state code n, bits 0 and 7 not read; the empty set matches every state but FREE (R26). -/
def stateSetMatches (states : Byte) (st : CallState) : Bool :=
  (states &&& 0x7E) = 0 || states.getLsbD (callStateCode st)

/-- The call's holder is the crew slot that carries the badge (R26). -/
def State.holderMatches (s : State) (b : Badge) (c : Call) : Bool :=
  match s.enrolled b with
  | some k => c.holder == some k
  | none => false

/-- A call matches when it satisfies every argument (R26). -/
def State.callMatches (s : State) (f : CallFilter) (c : Call) : Bool :=
  stateSetMatches f.states c.state && (f.trade.isNone || f.trade == some c.trade) && (f.cls.isNone || f.cls == some c.cls) &&
    (f.origin.isNone || f.origin == some c.origin) && (match f.badge with
      | none => true
      | some b => s.holderMatches b c)

/-- The first matching slot from the start slot upwards, without wrapping (R26). -/
def State.findCall (s : State) (f : CallFilter) : Option CallSlotNo :=
  callSlots.find? (fun i => decide (f.start ≤ i) && (match s.call i with
    | some c => s.callMatches f c
    | none => false))

/-- R26. -/
def findCallsEffect (s : State) : CommandEffect :=
  match readFilter s with
  | none => refuseWith s .badField
  | some f =>
    match s.findCall f with
    | some i => okWith s [(s.tagOf i).byte]
    | none => { state := s, result := .none, answer := [], lamps := [] }

/-- FIND_CALLS (R26). -/
def execFindCalls (s : State) : Host.Outcome State Fault Refusal := runCommand .findCalls findCallsEffect s

/-! ## HOLD and RESUME (R19, R20) -/

/-- A COMMAND hold is set; a pending expiry is removed (R100, R103). -/
def Call.setHold (k : HoldKind) (c : Call) : Call :=
  { c with hold := some k, timer := { c.timer with expiryPending := false } }

/-- What else an accepted HOLD changes, by the state (R19). -/
def State.holdCall (s : State) (i : CallSlotNo) (c : Call) : State :=
  let s1 := s.modCall i (Call.setHold .command)
  match c.state with
  | .waiting => s1.leaveDispatch i
  | .offered => (s1.withdrawAll i .held).becomeWaiting i
  | .accepted | .attending | .closed => s1
  | .unclaimed => s1.evalHorn

/-- R19. -/
def holdEffect (s : State) : CommandEffect :=
  onCall true true s (fun i c =>
    if !c.live then refuseWith s .wrongState
    else if c.hold.isSome then refuseWith s .held
    else okWith (s.holdCall i c) [(s.tagOf i).byte])

/-- HOLD (R19). -/
def execHold (s : State) : Host.Outcome State Fault Refusal := runCommand .hold holdEffect s

/-- A COMMAND hold is removed (R20): a WAITING call joins the list, a frozen timer goes on, and at a count of 0 its expiry is
taken within the event (R103); an UNCLAIMED call's horn is evaluated. -/
def State.resumeHeld (s : State) (i : CallSlotNo) (c : Call) : State :=
  let s1 := s.modCall i (fun c => { c with hold := none })
  let s2 := if c.state = .waiting then s1.joinDispatch i else s1
  let s3 := if c.timer.mode ≠ .none ∧ c.timer.count = 0 then s2.timerExpires i c.timer.mode else s2
  if c.state = .unclaimed then s3.evalHorn else s3

/-- R20. -/
def resumeEffect (s : State) : CommandEffect :=
  onCall true true s (fun i c =>
    if !c.live then refuseWith s .wrongState
    else if c.hold ≠ some .command then refuseWith s .wrongState
    else okWith (s.resumeHeld i c) [])

/-- RESUME (R20). -/
def execResume (s : State) : Host.Outcome State Fault Refusal := runCommand .resume resumeEffect s

/-! ## CLOSE_CALL and RETIRE (R16, R17) -/

/-- R16. -/
def closeCallEffect (s : State) : CommandEffect :=
  onCall true true s (fun i c =>
    if !c.live then refuseWith s .wrongState
    else okWith (s.closeCall i .closedByCommand false) [(s.tagOf i).byte])

/-- CLOSE_CALL (R16). -/
def execCloseCall (s : State) : Host.Outcome State Fault Refusal := runCommand .closeCall closeCallEffect s

/-- R17. -/
def retireEffect (s : State) : CommandEffect :=
  onCall true true s (fun i c => if c.live then refuseWith s .wrongState else okWith (s.freeSlot i) [])

/-- RETIRE (R17). -/
def execRetire (s : State) : Host.Outcome State Fault Refusal := runCommand .retire retireEffect s

/-! ## ASSIGN (R91, R92) -/

/-- The assigned crew's own offer on this call ends with no history entry, and its pending PAGE is removed unsent (R92
step 1). -/
def State.dropOwnOffer (s : State) (i : CallSlotNo) (k : CrewSlotNo) : State :=
  if s.isOfferee i k then (s.endOffer i k none).removePageOf i k else s

/-- The ASSIGNED page (R92 step 5). -/
def State.offerAssigned (s : State) (i : CallSlotNo) (k : CrewSlotNo) : State :=
  match s.call i, s.crew k with
  | some c, some cr =>
    s.offerPage { tag := s.tagOf i, badge := cr.badge, trade := c.trade, cls := c.cls, zone := c.zone, origin := c.origin,
                  rung := c.rung, mode := .assigned }
  | _, _ => s

/-- The steps of an ASSIGN that passes its checks (R92). -/
def State.assignCrew (s : State) (i : CallSlotNo) (k : CrewSlotNo) (c : Call) : State :=
  let s1 := (((s.dropOwnOffer i k).preempt k).withdrawAll i .taken).takeCall i k
  let s2 := s1.offerAssigned i k
  if c.state = .unclaimed ∧ c.cls = .stop then s2.evalHorn else s2

/-- The ordered checks of R91, then R92. -/
def assignEffect (s : State) : CommandEffect :=
  onCall true (badgeValid (word16 (s.arg 1) (s.arg 2))) s (fun i c =>
    if c.state = .accepted ∨ c.state = .attending ∨ c.state = .closed then refuseWith s .wrongState
    else if c.hold.isSome then refuseWith s .held
    else match s.enrolled (word16 (s.arg 1) (s.arg 2)) with
      | none => refuseWith s .noSuch
      | some k =>
        match s.crew k with
        | none => refuseWith s .noSuch
        | some cr =>
          if cr.duty = .off then refuseWith s .offDuty
          else if s.plan.loadLimit ≤ cr.load then refuseWith s .loaded
          else okWith (s.assignCrew i k c) [(s.tagOf i).byte, byteOf k.val])

/-- ASSIGN (R92). -/
def execAssign (s : State) : Host.Outcome State Fault Refusal := runCommand .assign assignEffect s

/-! ## ESCALATE (R93) -/

/-- The call's state as a code, for the answer of ESCALATE. -/
def State.stateByte (s : State) (i : CallSlotNo) : Byte :=
  match s.call i with
  | some c => byteOf (callStateCode c.state)
  | none => 0

/-- A load of 0 in the current mode: an immediate expiry, which replaces a pending one and is taken in the event (R93,
R101). -/
def State.escalateCall (s : State) (i : CallSlotNo) (c : Call) : State :=
  (s.modCall i (fun c' => c'.loadTimer c.timer.mode 0)).timerExpires i c.timer.mode

/-- R93. -/
def escalateEffect (s : State) : CommandEffect :=
  onCall true true s (fun i c =>
    if !c.live then refuseWith s .wrongState
    else if c.hold.isSome then refuseWith s .held
    else if c.timer.mode = .none then refuseWith s .wrongState
    else
      let s1 := s.escalateCall i c
      okWith s1 [(s.tagOf i).byte, s1.stateByte i])

/-- ESCALATE (R93). -/
def execEscalate (s : State) : Host.Outcome State Fault Refusal := runCommand .escalate escalateEffect s

/-! ## REPAGE (R94) -/

/-- The counts of a REPAGE: pages queued, already pending, refused for want of room. -/
structure RepageCounts where
  queued : Nat
  pending : Nat
  refused : Nat
  deriving DecidableEq, Repr

/-- One page of a REPAGE (R94, R113, R114): a pending page is kept; a page without room is not made. -/
def repageOne (i : CallSlotNo) (c : Call) (r : Rung) (x : State × RepageCounts) (k : CrewSlotNo) : State × RepageCounts :=
  match x.1.crew k with
  | none => x
  | some cr =>
    let tag := x.1.tagOf i
    if x.1.hasPendingPage tag cr.badge then (x.1, { x.2 with pending := x.2.pending + 1 })
    else if (x.1.supersedeWithdraw tag cr.badge).hasRoom c.cls then
      (x.1.offerPage { tag := tag, badge := cr.badge, trade := c.trade, cls := c.cls, zone := c.zone, origin := c.origin,
                       rung := c.rung, mode := r.pageMode }, { x.2 with queued := x.2.queued + 1 })
    else (x.1, { x.2 with refused := x.2.refused + 1 })

/-- REPAGE of an OFFERED call: the OFFER timer is reloaded, then a page for each offeree in order (R94). The offerees are those
of the set as the command finds it; that a page whose joining ends another's offer does not take it from the round is the
model's choice (log 38). -/
def State.repageOffered (s : State) (i : CallSlotNo) (c : Call) (r : Rung) : State × RepageCounts :=
  c.offerees.foldl (repageOne i c r)
    (s.modCall i (fun c => c.loadTimer .offer r.offerTime), { queued := 0, pending := 0, refused := 0 })

/-- R94. -/
def repageEffect (s : State) : CommandEffect :=
  onCall true true s (fun i c =>
    if !c.live then refuseWith s .wrongState
    else if c.hold.isSome then refuseWith s .held
    else match c.state with
      | .offered =>
        match s.rungOf c with
        | some r =>
          let x := s.repageOffered i c r
          okWith x.1 [(s.tagOf i).byte, byteOf x.2.queued, byteOf x.2.pending, byteOf x.2.refused]
        | none => refuseWith s .wrongState
      | .accepted =>
        match (s.ladderOf c).bind (·.travel) with
        | some n => okWith (s.modCall i (fun c => c.loadTimer .travel n)) [(s.tagOf i).byte, byteOf (n / 30)]
        | none => refuseWith s .wrongState
      | .waiting | .attending | .unclaimed | .closed => refuseWith s .wrongState)

/-- REPAGE (R94). -/
def execRepage (s : State) : Host.Outcome State Fault Refusal := runCommand .repage repageEffect s

end Sys2Proof.Machine
end

