-- ==== Sys2Proof/Machine/Clocks.lean ====
section
/-! DEFINITION. The clocks and the expiries: TICK, MINUTE, OFFER_EXPIRY, TRAVEL_EXPIRY, RETRY_EXPIRY (chapter 5) and AUTO_CLOSE (R68). -/

namespace Sys2Proof.Machine

/-! ## The tick (R104) -/

/-- The tick at a call slot (R99). -/
def CallSlot.tick (x : CallSlot) : CallSlot := { x with call := x.call.map Call.tickTimer }

/-- The tick at a crew slot (R106). -/
def Crew.tick (c : Crew) : Crew := { c with sightAge := saturate Config.sightAgeLimit c.sightAge }

/-- The auto-close count goes down by one during a warm session (R68). -/
def SitePlan.tick (p : SitePlan) : SitePlan := { p with autoClose := p.autoClose.map (· - 1) }

/-- A minute is made: it is on its way to every owner (R105). -/
def MinuteDue.raise (d : MinuteDue) : MinuteDue := { ages := d.ages.map (· + 1), idles := d.idles.map (· + 1) }

/-- The minute count; the tick that would take it to 60 sets it to 0 and makes a minute (R105). -/
def Clock.countTick (c : Clock) : Clock :=
  if c.minuteCount + 1 = Config.ticksPerMinute then { c with minuteCount := 0, minuteDue := c.minuteDue.raise }
  else { c with minuteCount := c.minuteCount + 1 }

/-- A tick is made: it is on its way to every owner (R104). -/
def TickDue.raise (d : TickDue) : TickDue where
  timers := d.timers.map (· + 1)
  sightings := d.sightings.map (· + 1)
  autoClose := d.autoClose + 1
  minuteCount := d.minuteCount + 1

/-- The ticks on their way replaced. -/
def State.setTickDue (s : State) (d : TickDue) : State := { s with clock := { s.clock with tickDue := d } }

/-- A tick made and taken at every owner, with nothing between (log 5). -/
def State.tickWhole (s : State) : State :=
  { s with
    calls := { s.calls with slots := s.calls.slots.map CallSlot.tick }
    roster := { s.roster with crews := s.roster.crews.map (Option.map Crew.tick) }
    plan := s.plan.tick
    clock := { s.clock.countTick with oneSecondPhase := 0 } }

/-- One event of a tick (R104): the divider goes past its last value to 0 and makes the tick, or the tick is taken at one of
its owners, to which it is on its way. -/
def State.tickPart (s : State) : TickPart → State
  | .whole => s.tickWhole
  | .divider => { s with clock := { s.clock with oneSecondPhase := 0, tickDue := s.clock.tickDue.raise } }
  | .timer i =>
    let d := s.clock.tickDue
    if d.timers[i] = 0 then s
    else (s.setSlot i (s.slot i).tick).setTickDue { d with timers := d.timers.set i (d.timers[i] - 1) }
  | .sighting k =>
    let d := s.clock.tickDue
    if d.sightings[k] = 0 then s
    else (s.setCrew k ((s.crew k).map Crew.tick)).setTickDue { d with sightings := d.sightings.set k (d.sightings[k] - 1) }
  | .autoClose =>
    let d := s.clock.tickDue
    if d.autoClose = 0 then s
    else { s with plan := s.plan.tick }.setTickDue { d with autoClose := d.autoClose - 1 }
  | .minuteCount =>
    let d := s.clock.tickDue
    if d.minuteCount = 0 then s
    else { s with clock := s.clock.countTick }.setTickDue { d with minuteCount := d.minuteCount - 1 }

/-- TICK (R104; log 5). -/
def execTick (s : State) (part : TickPart := .whole) : Host.Outcome State Fault Refusal :=
  if s.resetLine = .released then .next (s.tickPart part) else .next s

/-! ## The minute (R105) -/

/-- The minute at a call: the age of a live call (R107). -/
def Call.minute (c : Call) : Call := if c.live then { c with age := saturate Config.ageLimit c.age } else c

def CallSlot.minute (x : CallSlot) : CallSlot := { x with call := x.call.map Call.minute }

/-- The minute at a crew: the idle minutes of a crew with load 0 (R108). -/
def Crew.minute (c : Crew) : Crew := if c.load = 0 then { c with idle := saturate Config.idleLimit c.idle } else c

/-- A minute is on its way to every owner. -/
def MinuteDue.whole (d : MinuteDue) : Bool := d.ages.all (0 < ·) && d.idles.all (0 < ·)

/-- The minutes on their way after one has been taken at every owner. -/
def MinuteDue.lower (d : MinuteDue) : MinuteDue := { ages := d.ages.map (· - 1), idles := d.idles.map (· - 1) }

/-- The minutes on their way replaced. -/
def State.setMinuteDue (s : State) (d : MinuteDue) : State := { s with clock := { s.clock with minuteDue := d } }

/-- A minute taken at every owner, with nothing between (log 5). -/
def State.minuteWhole (s : State) : State :=
  { s with
    calls := { s.calls with slots := s.calls.slots.map CallSlot.minute }
    roster := { s.roster with crews := s.roster.crews.map (Option.map Crew.minute) }
    clock := { s.clock with minuteDue := s.clock.minuteDue.lower } }

/-- One event of a minute (R105): it is taken at one of its owners, or at all of them, to which it is on its way. -/
def State.minutePart (s : State) : MinutePart → State
  | .whole => if s.clock.minuteDue.whole then s.minuteWhole else s
  | .age i =>
    let d := s.clock.minuteDue
    if d.ages[i] = 0 then s
    else (s.setSlot i (s.slot i).minute).setMinuteDue { d with ages := d.ages.set i (d.ages[i] - 1) }
  | .idle k =>
    let d := s.clock.minuteDue
    if d.idles[k] = 0 then s
    else (s.setCrew k ((s.crew k).map Crew.minute)).setMinuteDue { d with idles := d.idles.set k (d.idles[k] - 1) }

/-- MINUTE (R105; log 5). -/
def execMinute (s : State) (part : MinutePart := .whole) : Host.Outcome State Fault Refusal :=
  if s.resetLine = .released then .next (s.minutePart part) else .next s

/-! ## Expiries (R100) -/

/-- The timer of the call in a slot has an expiry of a mode pending. -/
def State.expiryDue (s : State) (i : CallSlotNo) (mode : TimerMode) : Bool :=
  s.resetLine == .released && (match s.call i with
    | some c => c.expiryDue mode
    | none => false)

/-- The taking of an expiry at its call record: the mark is cleared in the same event (R100). -/
def State.clearExpiry (s : State) (i : CallSlotNo) : State :=
  s.modCall i (fun c => { c with timer := { c.timer with expiryPending := false } })

/-- OFFER_EXPIRY (R85). -/
def execOfferExpiry (slot : CallSlotNo) (s : State) : Host.Outcome State Fault Refusal :=
  if s.expiryDue slot .offer then .next (settle s [] ((s.clearExpiry slot).offerExpires slot)) else .next s

/-- TRAVEL_EXPIRY (R86). -/
def execTravelExpiry (slot : CallSlotNo) (s : State) : Host.Outcome State Fault Refusal :=
  if s.expiryDue slot .travel then .next (settle s [] ((s.clearExpiry slot).travelExpires slot)) else .next s

/-- RETRY_EXPIRY (R88). -/
def execRetryExpiry (slot : CallSlotNo) (s : State) : Host.Outcome State Fault Refusal :=
  if s.expiryDue slot .retry then .next (settle s [] ((s.clearExpiry slot).retryExpires slot)) else .next s

/-! ## AUTO_CLOSE (R68) -/

/-- The auto-close count of a warm session has reached 0: the expiry is pending. R68 puts the expiry at the tick that takes
the count to 0; that the count stands at 0 until AUTO_CLOSE is taken, with other events between, is the model's choice
(log 36). -/
def State.autoCloseDue (s : State) : Bool :=
  s.resetLine == .released && s.plan.phase == .openWarm && s.plan.autoClose == some 0

/-- AUTO_CLOSE (R68): the warm plan is closed as R67 closes it, and the PLAN AUTO-CLOSED latch is set. -/
def execAutoClose (s : State) : Host.Outcome State Fault Refusal :=
  if s.autoCloseDue then
    let s1 := s.closeWarm
    .next (settle s s1.livePoints { s1 with plan := { s1.plan with autoClosed := true } })
  else .next s

end Sys2Proof.Machine
end

