-- ==== Sys2Proof/Machine/DispatchTurn.lean ====
section
/-! DEFINITION. DISPATCH_TURN: eligibility (R72), candidate order (R73), the turn's decision (R71, R74), the gate (R122), displacement (R123), the offer (R75) and ladder exhaustion (R76). -/

namespace Sys2Proof.Machine

/-! ## Eligible crews (R72) -/

/-- The call a crew's outstanding offer is on. -/
def State.offeredCall (s : State) (c : Crew) : Option Call :=
  match c.offer with
  | some t => match s.resolve t with
    | .names v => some v
    | .stale | .vacant => none
  | none => none

/-- No outstanding offer, or one on a call of lower class: the crew is then pre-emptable (R72 point 6). -/
def State.offerAllows (s : State) (served : CallClass) (c : Crew) : Bool :=
  match c.offer with
  | none => true
  | some _ => match s.offeredCall c with
    | some v => classRank v.cls < classRank served
    | none => false

/-- The reach of a rung (R72 point 7). -/
def State.meetsReach (s : State) (reach : Reach) (zone : Zone) (c : Crew) : Bool :=
  match reach with
  | .site => true
  | .zone => s.reachable c && c.lastSeen == some zone
  | .near => s.reachable c && (match c.lastSeen with
    | some z => z == zone || s.neighbour zone z
    | none => false)

/-- The crew is excluded by an entry of the call's offer history (R72 point 5). -/
def Call.excludes (c : Call) (k : CrewSlotNo) : Bool := c.history.any (fun e => e.crew == k && e.outcome.excludes)

def State.eligible (s : State) (call : Call) (r : Rung) (k : CrewSlotNo) : Bool :=
  match s.crew k with
  | none => false
  | some c =>
    c.duty == .on && hasTrade c.trades call.trade && c.grade == r.grade && c.load < s.plan.loadLimit &&
      !call.excludes k && s.offerAllows call.cls c && s.meetsReach r.reach call.zone c

/-! ## Candidate order (R73) -/

/-- The crew's zone is its last-seen zone when it is reachable and its home zone when it is not. -/
def State.crewZone (s : State) (c : Crew) : Zone := if s.reachable c then c.lastSeen.getD c.home else c.home

def State.proximity (s : State) (zone : Zone) (c : Crew) : Nat :=
  if s.crewZone c = zone then 0 else if s.neighbour zone (s.crewZone c) then 1 else 2

/-- The five keys, smallest first; more idle minutes come first, so the key counts down from the limit. -/
def State.candidateKey (s : State) (zone : Zone) (k : CrewSlotNo) : List Nat :=
  match s.crew k with
  | some c => [c.offer.isSome.toNat, s.proximity zone c, c.load, Config.idleLimit - c.idle, k.val]
  | none => [k.val]

/-- The first key on which two lists differ decides. -/
def keysBefore : List Nat → List Nat → Bool
  | [], _ => true
  | _ :: _, [] => false
  | a :: as, b :: bs => if a < b then true else if b < a then false else keysBefore as bs

/-- A list put in order by insertion. -/
def insertBy {α : Type} (before : α → α → Bool) (x : α) : List α → List α
  | [] => [x]
  | y :: ys => if before x y then x :: y :: ys else y :: insertBy before x ys

def sortBy {α : Type} (before : α → α → Bool) : List α → List α
  | [] => []
  | x :: xs => insertBy before x (sortBy before xs)

/-- The eligible set in candidate order. -/
def State.candidates (s : State) (call : Call) (r : Rung) : List CrewSlotNo :=
  sortBy (fun a b => keysBefore (s.candidateKey call.zone a) (s.candidateKey call.zone b))
    (crewSlots.filter (s.eligible call r))

/-! ## The decision of a turn (R74) -/

/-- What a turn does to its call: an offer at a rung, with the tries used after it and the crews chosen, or ladder
exhaustion at the last rung with its tries. -/
inductive TurnPlan where
  | offer (rungNo tries : Nat) (rung : Rung) (chosen : List CrewSlotNo)
  | exhausted (rungNo tries : Nat)
  deriving DecidableEq, Repr

/-- The crews that a rung would be offered to with the tries used: none where the call advances. -/
def chosenAt (r : Rung) (tries : Nat) (set : List CrewSlotNo) : List CrewSlotNo :=
  match r.mode with
  | .single n => if tries < n then set.take 1 else []
  | .all => if tries = 0 then set.take Config.allRungCrews else []

/-- The turn over the rungs from the current one: offer, or advance, or past the last rung exhaust (R74). -/
def State.planRungs (s : State) (call : Call) : List Rung → Nat → Nat → Option TurnPlan
  | [], _, _ => none
  | r :: rest, n, tries =>
    match chosenAt r tries (s.candidates call r) with
    | k :: ks => some (.offer n (tries + 1) r (k :: ks))
    | [] => if rest.isEmpty then some (.exhausted n r.tries) else s.planRungs call rest (n + 1) 0

/-- The decision of a turn for a call, on the records as they stand (R71). A live call has a present ladder and a rung below
its count (R63, R64), so there is always one. -/
def State.turnPlan (s : State) (call : Call) : Option TurnPlan :=
  match s.ladderOf call with
  | some l => s.planRungs call (l.rungs.drop call.rung) call.rung call.triesUsed
  | none => none

/-! ## The need and the gate (R71, R122) -/

/-- The pair of tag and badge of a crew's outstanding offer. -/
def State.offerPair (s : State) (k : CrewSlotNo) : Option (Tag × Badge) :=
  match s.crew k with
  | some c => c.offer.map (fun t => (t, c.badge))
  | none => none

/-- The pre-emption of a crew queues a WITHDRAW, unless its PAGE is still pending with none in flight (R71). -/
def State.needsWithdraw (s : State) (k : CrewSlotNo) : Bool :=
  match s.offerPair k with
  | some (t, b) => !(s.hasPendingPage t b && !s.hasPageInFlight t b)
  | none => false

def TurnPlan.need (s : State) : TurnPlan → Nat
  | .offer _ _ _ chosen => chosen.length + (chosen.filter s.needsWithdraw).length
  | .exhausted _ _ => 0

/-- An entry is the pending PAGE of the outstanding offer of one of the crews: the turn removes it itself (R122). -/
def State.ownPage (s : State) (chosen : List CrewSlotNo) (e : Entry) : Bool :=
  chosen.any (fun k => match s.offerPair k with
    | some (t, b) => e.pendingPage t b
    | none => false)

def TurnPlan.chosen : TurnPlan → List CrewSlotNo
  | .offer _ _ _ chosen => chosen
  | .exhausted _ _ => []

/-- Free positions plus the pending PAGEs that the turn removes itself (R122 case 3). -/
def State.turnRoom (s : State) (chosen : List CrewSlotNo) : Nat :=
  (Config.queueLimit - s.queueCount) + (s.queue.entries.filter (s.ownPage chosen)).length

/-- The other pending entries of the ROUTINE band (R122 case 4). -/
def State.displaceable (s : State) (chosen : List CrewSlotNo) : Nat :=
  (s.queue.entries.filter (fun e => e.pendingRoutine && !s.ownPage chosen e)).length

/-- The dispatch gate (R122). -/
def State.admits (s : State) (cls : CallClass) (plan : TurnPlan) : Bool :=
  let need := plan.need s
  if need = 0 then true
  else match cls with
    | .routine => !s.queue.throttled && need ≤ s.turnRoom plan.chosen
    | .urgent => need ≤ s.turnRoom plan.chosen
    | .stop => need ≤ s.turnRoom plan.chosen + s.displaceable plan.chosen

/-! ## Serving the call -/

/-- One chosen crew is offered the call (R75): its offer is pre-empted where it has one, it joins the offeree set, and a
PAGE is queued. -/
def State.offerTo (i : CallSlotNo) (rungNo : Nat) (mode : PageMode) (k : CrewSlotNo) (s : State) : State :=
  let s1 := s.preempt k
  let s2 := (s1.modCall i (fun c => { c with offerees := c.offerees ++ [k] })).modCrew k (fun c => { c with offer := some (s1.tagOf i) })
  match s2.call i, s2.crew k with
  | some c, some cr =>
    s2.offerPage { tag := s2.tagOf i, badge := cr.badge, trade := c.trade, cls := c.cls, zone := c.zone, origin := c.origin,
                   rung := rungNo, mode := mode }
  | _, _ => s2

/-- Making the offer of a turn (R75), after the displacement it is short of (R122, R123). -/
def State.makeOffer (s : State) (i : CallSlotNo) (rungNo tries : Nat) (r : Rung) (chosen : List CrewSlotNo) (need : Nat) :
    State :=
  let s1 := State.displace (s.ownPage chosen) (need - s.turnRoom chosen) s
  let s2 := chosen.foldl (fun s k => State.offerTo i rungNo r.pageMode k s) s1
  (s2.modCall i (fun c => { (c.loadTimer .offer r.offerTime) with
      state := .offered, rung := rungNo, triesUsed := tries })).leaveDispatch i

/-- Ladder exhaustion (R76). -/
def State.exhaust (s : State) (i : CallSlotNo) (rungNo tries : Nat) : State :=
  let retry := match (s.call i).bind s.ladderOf with
    | some l => l.retry
    | none => 0
  let s1 := ((s.modCall i (fun c => { (c.loadTimer .retry retry) with
      state := .unclaimed, rung := rungNo, triesUsed := tries,
      unclaimedRounds := saturate Config.unclaimedRoundsLimit c.unclaimedRounds })).addAttention i .unclaimed).leaveDispatch i
  match s1.call i with
  | some c => if c.cls = .stop then { s1 with disp := { s1.disp with silenced := false } }.evalHorn else s1
  | none => s1

def State.serve (s : State) (i : CallSlotNo) : TurnPlan → State
  | .offer n tries r chosen => s.makeOffer i n tries r chosen ((TurnPlan.offer n tries r chosen).need s)
  | .exhausted n tries => s.exhaust i n tries

/-- The decision for the call in a slot, if its need fits. -/
def State.servable (s : State) (i : CallSlotNo) : Option TurnPlan :=
  match s.call i with
  | none => none
  | some c =>
    match s.turnPlan c with
    | some p => if s.admits c.cls p then some p else none
    | none => none

/-- The first call in list order that can be served (R70). -/
def State.firstServable (s : State) : List CallSlotNo → Option (CallSlotNo × TurnPlan)
  | [] => none
  | i :: is =>
    match s.servable i with
    | some p => some (i, p)
    | none => s.firstServable is

/-- DISPATCH_TURN (R70): turns serve calls while the plan is CLOSED; without a servable call no turn is taken. -/
def execDispatchTurn (s : State) : Host.Outcome State Fault Refusal :=
  if s.resetLine = .released ∧ s.plan.phase = .closed then
    match s.firstServable s.disp.list with
    | some (i, p) => .next (settle s [] (s.serve i p))
    | none => .next s
  else .next s

end Sys2Proof.Machine
end

