-- ==== Sys2Proof/Machine/FieldTraffic.lean ====
section
/-! DEFINITION. The field frames: RAISE, CANCEL, POINT_HELLO, KEY, SIGHT, BEACON_HELLO, RECEPTION_ERROR (chapters 7.5 and 8). -/

namespace Sys2Proof.Machine

/-- The receiver follows another node's frame in IDLE and BUSY (R134), the receipt window among them (R147, R149, R155;
log 43); but not while the TF6448 drives a frame of its own, nor while it waits for the first idle or has no frame to receive
(R129, R132; log 4). -/
def State.hearsFrame (s : State) : Bool :=
  s.resetLine == .released && (match s.line.state with
    | .idle => true
    | .busy .receiving | .busy .frameOver | .busy (.drivingReceipt _) | .busy .receiptWindow => true
    | .busy .waitingForIdle | .busy (.sending _) => false
    | .silent | .held | .stuck => false)

/-- What a handed-over frame does: the records, the receipt where the frame wants one, and the points whose lamp update is
asked for besides the changes of calls. -/
structure FrameEffect where
  state : State
  receipt : Option ReceiptCode
  lamps : List Point
  deriving DecidableEq, Repr

/-- The line after a handed-over frame: the receipt is driven in the same frame (R136), or the frame is over. -/
def lineAfterFrame : Option ReceiptCode → BusyWith
  | some r => .drivingReceipt r.driven
  | none => .frameOver

/-- The records `t` that a frame of another node has left when it came in at `s`. In a receipt window its first edge has been
taken as the beginning of the receipt, from whichever node it comes, and it is no good receipt: the attempt ends in the event
after the frame's own, and the window closes (R133; log 43). -/
def State.afterFrame (s t : State) : State := if s.inWindow then t.endUnreceipted else t

/-- A handed-over frame is one event, taken when the line has brought it in (R135, R143). A frame from a beacon, whose check
byte was correct, sets that zone's beacon-answering flag (R139). -/
def receiveFrame (beacon : Option Zone) (effect : State → FrameEffect) (s : State) : Host.Outcome State Fault Refusal :=
  if s.hearsFrame then
    let s0 := s.setLineState (.busy .receiving)
    let e := effect (match beacon with
      | some z => s0.setAnswering z true
      | none => s0)
    .next ((s.afterFrame (settle s0 e.lamps e.state)).setLineState (.busy (lineAfterFrame e.receipt)))
  else .next s

/-! ## Frames from call points -/

/-- A frame from a point clears its lamp-stale flag, and a lamp update is made if the flag was set (R155). -/
def State.staleAsk (s : State) (p : Point) : List Point := if s.lampStale[p] then [p] else []
def State.clearStale (s : State) (p : Point) : State := s.setLampStale p false

/-- The receipt of a raise (R145). -/
def raiseReceipt : RaiseAnswer → ReceiptCode
  | .notReady => .notReady
  | .disabled => .disabled
  | .noLadder => .noLadder
  | .full => .full
  | .merged t => .merged t.byte
  | .new t => .new t.byte

/-- R145, R143. -/
def raiseEffect (p : Point) (body : List Byte) (s : State) : FrameEffect :=
  match readRaiseBody body with
  | none => { state := s.clearStale p, receipt := some .badBody, lamps := s.staleAsk p }
  | some (t, c) =>
    let r := (s.clearStale p).raiseFromPoint p t c
    { state := r.1, receipt := some (raiseReceipt r.2), lamps := s.staleAsk p }

/-- RAISE (R145). -/
def execRaise (source : Point) (body : List Byte) (s : State) : Host.Outcome State Fault Refusal :=
  receiveFrame none (raiseEffect source body) s

/-- The live calls of a point that a CANCEL names, in slot order: those of one trade, or of all (R15). -/
def State.cancelled (s : State) (p : Point) (t : Option Trade) : List CallSlotNo :=
  callSlots.filter (fun i => match s.call i with
    | some c => c.live && c.origin == .point p && (t.isNone || t == some c.trade)
    | none => false)

/-- R146, R15, R143. -/
def cancelEffect (p : Point) (body : List Byte) (s : State) : FrameEffect :=
  match readCancelBody body with
  | none => { state := s.clearStale p, receipt := some .badBody, lamps := s.staleAsk p }
  | some t =>
    let slots := s.cancelled p t
    { state := slots.foldl (fun s i => s.closeCall i .cancelled false) (s.clearStale p)
      receipt := some (.cancelled (byteOf slots.length))
      lamps := s.staleAsk p }

/-- CANCEL (R146). -/
def execCancel (source : Point) (body : List Byte) (s : State) : Host.Outcome State Fault Refusal :=
  receiveFrame none (cancelEffect source body) s

/-- R147. A frame handed over with destination 0 is ignored (R143; log 14). -/
def pointHelloEffect (p : Point) (dest : Destination) (s : State) : FrameEffect :=
  match dest with
  | .head => { state := s.clearStale p, receipt := none, lamps := [p] }
  | .allBeacons => { state := s, receipt := none, lamps := [] }

/-- POINT_HELLO (R147): the body is not read (R143). -/
def execPointHello (source : Point) (dest : Destination) (_body : List Byte) (s : State) : Host.Outcome State Fault Refusal :=
  receiveFrame none (pointHelloEffect source dest) s

/-! ## Frames from beacons -/

/-- An update of the unknown-badge latch (R49). -/
def State.latchUnknown (s : State) (b : Badge) : State :=
  { s with roster := { s.roster with
      unknownBadge := { latched := true, badge := some b, overrun := s.roster.unknownBadge.latched || s.roster.unknownBadge.overrun } } }

/-- A sighting of one badge in a zone (R46): an enrolled badge is seen there, an unenrolled one updates the latch, and the
numbers 0 and 65535 are passed over. -/
def State.sightBadge (z : Zone) (s : State) (b : Badge) : State :=
  match s.enrolled b with
  | some k => s.modCrew k (fun c => { c with lastSeen := some z, sightAge := 0 })
  | none => if badgeValid b then s.latchUnknown b else s

/-- R149: the sighting, then the tag, then the key. -/
def keyEffect (z : Zone) (body : List Byte) (s : State) : FrameEffect :=
  match readKeyBody body with
  | none => { state := s, receipt := some .badBody, lamps := [] }
  | some (tag, badge, key) =>
    let s1 := s.sightBadge z badge
    match s1.enrolled badge with
    | none => { state := s1, receipt := some .unknownBadge, lamps := [] }
    | some k =>
      match s1.resolve tag with
      | .stale | .vacant => { state := s1, receipt := some .stale, lamps := [] }
      | .names _ =>
        let r := s1.applyKey tag.slot k key
        { state := r.1, receipt := some r.2, lamps := [] }

/-- KEY (R149). -/
def execKey (source : Zone) (body : List Byte) (s : State) : Host.Outcome State Fault Refusal :=
  receiveFrame (some source) (keyEffect source body) s

/-- R148, R46: each badge in body order, and a badge that has stood before it in the body changes nothing further (log 41); a
body error is discarded (R143). -/
def sightEffect (z : Zone) (dest : Destination) (body : List Byte) (s : State) : FrameEffect :=
  match dest, readSightBody body with
  | .head, some badges => { state := badges.eraseDups.foldl (State.sightBadge z) s, receipt := none, lamps := [] }
  | _, _ => { state := s, receipt := none, lamps := [] }

/-- SIGHT (R148). -/
def execSight (source : Zone) (dest : Destination) (body : List Byte) (s : State) : Host.Outcome State Fault Refusal :=
  receiveFrame (some source) (sightEffect source dest body) s

/-- R150: no further action. -/
def beaconHelloEffect (s : State) : FrameEffect := { state := s, receipt := none, lamps := [] }

/-- BEACON_HELLO (R150): the beacon-answering flag alone. -/
def execBeaconHello (source : Zone) (_dest : Destination) (_body : List Byte) (s : State) : Host.Outcome State Fault Refusal :=
  receiveFrame (some source) beaconHelloEffect s

/-! ## Frames that fail the line checks (R135) -/

/-- The beacon-answering flag of a heard frame's source, when its check byte was correct (R135, R139). -/
def State.flagHeard (s : State) (h : HeardFrame) : State :=
  match h.verdict.checkPassed, Zone.ofBeacon h.frame.source with
  | true, some z => s.setAnswering z true
  | _, _ => s

/-- RECEPTION_ERROR (R135): a discarded frame is counted, an ignored one is not; after a LENGTH or FRAMING error the
receiver waits for idle. A frame that passes the checks is no reception error, and this row does nothing for it. -/
def execReceptionError (heard : HeardFrame) (s : State) : Host.Outcome State Fault Refusal :=
  if s.hearsFrame ∧ heard.verdict.counted = true then
    .next ((s.afterFrame (s.flagHeard heard).countReceiveError).setLineState
      (.busy (if heard.verdict.waitsForIdle then .waitingForIdle else .frameOver)))
  else if s.hearsFrame ∧ heard.verdict = .ignored then
    .next ((s.afterFrame (s.flagHeard heard)).setLineState (.busy .frameOver))
  else .next s

end Sys2Proof.Machine
end

