-- ==== Sys2Proof/Machine/PlanCommands.lean ====
section
/-! DEFINITION. The plan commands PLAN_WRITE, PLAN_READ and PLAN_CLOSE, and the checks of consistency (chapter 3). -/

namespace Sys2Proof.Machine

/-! ## Consistency (R56, R57) -/

/-- The failed checks and their codes (12.4). -/
inductive PlanCheck where
  | reclaimWithoutTravel | rungOrder | thresholds
  deriving DecidableEq, Repr

def PlanCheck.byte : PlanCheck → Byte
  | .reclaimWithoutTravel => 1
  | .rungOrder => 2
  | .thresholds => 3

/-- A rung is at least as wide as the one before it: its grade is not lower, and where the grade is equal its reach is not
narrower (R56). -/
def rungAsWide (a b : Rung) : Bool :=
  gradeRank a.grade < gradeRank b.grade || (a.grade == b.grade && reachRank a.reach ≤ reachRank b.reach)

def rungsInOrder : List Rung → Bool
  | [] => true
  | [_] => true
  | a :: b :: rest => rungAsWide a b && rungsInOrder (b :: rest)

/-- The check that a ladder fails, the reclaim check first; an absent ladder is consistent (R56). -/
def ladderCheck : Option Ladder → Option PlanCheck
  | none => none
  | some l =>
    if l.reclaim ∧ l.travel = none then some .reclaimWithoutTravel
    else if !rungsInOrder l.rungs then some .rungOrder
    else none

/-- The thresholds are consistent when both are 0, or low is 1–22 and high is from low + 1 to 23 (R57). -/
def thresholdsCheck (low high : Nat) : Option PlanCheck :=
  if (low = 0 ∧ high = 0) ∨ (1 ≤ low ∧ low ≤ 22 ∧ low + 1 ≤ high ∧ high ≤ 23) then none else some .thresholds

/-- The check that the contents of an item fail; only ladders and thresholds have one. -/
def contentsCheck : PlanContents → Option PlanCheck
  | .ladder _ _ l => ladderCheck l
  | .thresholds lo hi => thresholdsCheck lo hi
  | .zone _ _ | .point _ _ | .loadLimit _ | .sightingWindow _ | .attemptLimit _ | .lineSettings _ => none

/-! ## PLAN_WRITE (R62–R64) -/

/-- The contents are stored (R62). -/
def SitePlan.store (p : SitePlan) : PlanContents → SitePlan
  | .zone z e => { p with zones := p.zones.set z e }
  | .point q e => { p with points := p.points.set q e }
  | .ladder t c l => { p with ladders := p.ladders.set (ladderIndex t c) l }
  | .loadLimit n => { p with loadLimit := n }
  | .sightingWindow n => { p with sightingWindow := n }
  | .thresholds lo hi => { p with thresholdLow := lo, thresholdHigh := hi }
  | .attemptLimit n => { p with attemptLimit := n }
  | .lineSettings l => { p with lineSettings := l }

def State.storeItem (s : State) (x : PlanContents) : State := { s with plan := s.plan.store x }

/-- The live calls that use the ladder of a trade and class, in slot order (R63). -/
def State.usersOf (s : State) (t : Trade) (cls : CallClass) : List CallSlotNo :=
  callSlots.filter (fun i => match s.call i with
    | some c => c.live && c.trade == t && c.cls == cls
    | none => false)

/-- The users that a ladder clamps (R64). -/
def State.clampedBy (s : State) (l : Ladder) (users : List CallSlotNo) : List CallSlotNo :=
  users.filter (fun i => match s.call i with
    | some c => c.clampTo l != c
    | none => false)

/-- A warm write of contents that pass every check (R62, R64): stored, and the calls on a rewritten ladder clamped. -/
def warmStore (s : State) (x : PlanContents) : State × Nat :=
  match x with
  | .ladder t c (some l) =>
    let users := s.usersOf t c
    (users.foldl (fun s i => s.modCall i (Call.clampTo l)) (s.storeItem x), (s.clampedBy l users).length)
  | .ladder _ _ none | .zone _ _ | .point _ _ | .loadLimit _ | .sightingWindow _ | .thresholds _ _ | .attemptLimit _
  | .lineSettings _ => (s.storeItem x, 0)

/-- The live calls that a write of an absent ladder would leave without one (R63). -/
def leftWithout (s : State) : PlanContents → List CallSlotNo
  | .ladder t c none => s.usersOf t c
  | .ladder _ _ (some _) | .zone _ _ | .point _ _ | .loadLimit _ | .sightingWindow _ | .thresholds _ _ | .attemptLimit _
  | .lineSettings _ => []

/-- Checks 5 and 6 of R62 and the store, in an OPEN-WARM plan. -/
def warmWrite (s : State) (item : PlanItem) (x : PlanContents) : CommandEffect :=
  match contentsCheck x with
  | some k => { state := s, result := .badPlan, answer := item.bytes ++ [k.byte], lamps := [] }
  | none =>
    match leftWithout s x with
    | i :: is => { state := s, result := .inUse, answer := [(s.tagOf i).byte, byteOf (is.length + 1)], lamps := [] }
    | [] =>
      let r := warmStore s x
      okWith r.1 (item.bytes ++ [byteOf r.2])

/-- The store in an OPEN-COLD plan, with the consistency flag (R62). -/
def coldWrite (s : State) (item : PlanItem) (x : PlanContents) : CommandEffect :=
  okWith (s.storeItem x) (item.bytes ++ [match contentsCheck x with
    | some k => k.byte
    | none => 0])

/-- The ordered checks of R62. -/
def planWriteEffect (s : State) : CommandEffect :=
  if s.plan.phase = .closed then refuseWith s .planClosed
  else match readItem (s.arg 0) (s.arg 1) with
    | none => refuseWith s .badField
    | some item =>
      if item = .lineSettings ∧ s.plan.phase = .openWarm then refuseWith s .locked
      else match readContents s item with
        | none => refuseWith s .badField
        | some x => if s.plan.phase = .openWarm then warmWrite s item x else coldWrite s item x

/-- PLAN_WRITE (R62). -/
def execPlanWrite (s : State) : Host.Outcome State Fault Refusal := runCommand .planWrite planWriteEffect s

/-! ## PLAN_READ (R65) -/

def planReadEffect (s : State) : CommandEffect :=
  match readItem (s.arg 0) (s.arg 1) with
  | none => refuseWith s .badField
  | some item => okWith s (item.bytes ++ s.itemBytes item)

/-- PLAN_READ (R65). -/
def execPlanRead (s : State) : Host.Outcome State Fault Refusal := runCommand .planRead planReadEffect s

/-! ## PLAN_CLOSE (R66, R67) -/

/-- The ladders in the order of validation: by trade, and within a trade by class (R66). -/
def validationOrder : List (Trade × CallClass) :=
  [Trade.electrical, .mechanical, .hydraulic, .crane].flatMap (fun t => [(t, CallClass.routine), (t, .urgent), (t, .stop)])

/-- The first ladder that fails, with its check. -/
def State.firstBadLadder (s : State) : List (Trade × CallClass) → Option (PlanItem × PlanCheck)
  | [] => none
  | (t, c) :: rest =>
    match ladderCheck (s.ladder t c) with
    | some k => some (.ladder t c, k)
    | none => s.firstBadLadder rest

/-- The first item that fails the validation of a cold plan: the ladders, then the thresholds (R66). -/
def State.validate (s : State) : Option (PlanItem × PlanCheck) :=
  match s.firstBadLadder validationOrder with
  | some x => some x
  | none => (thresholdsCheck s.plan.thresholdLow s.plan.thresholdHigh).map (fun k => (.thresholds, k))

/-- The cold close (R66, R141): the plan becomes CLOSED, the first-close flag yes, and the Line Controller starts with the
line settings, BUSY until the first idle. -/
def State.closeCold (s : State) : State :=
  { s with
    plan := { s.plan with phase := .closed, firstClose := true }
    line := { s.line with state := .busy .waitingForIdle, settings := s.plan.lineSettings } }

/-- R66 and R67. -/
def planCloseEffect (s : State) : CommandEffect :=
  match s.plan.phase with
  | .closed => refuseWith s .planClosed
  | .openCold =>
    match s.validate with
    | some (item, k) => { state := s, result := .badPlan, answer := item.bytes ++ [k.byte], lamps := [] }
    | none => okWith s.closeCold []
  | .openWarm => { state := s.closeWarm, result := .ok, answer := [], lamps := s.closeWarm.livePoints }

/-- PLAN_CLOSE (R66). -/
def execPlanClose (s : State) : Host.Outcome State Fault Refusal := runCommand .planClose planCloseEffect s

end Sys2Proof.Machine
end

