-- ==== Sys2Proof/Machine/Resets.lean ====
section
/-! DEFINITION. POWER_ON (R176), RESET_LINE_ASSERTION (R177) and WARM_RESTART (R178), block by block. -/

namespace Sys2Proof.Machine

/-- Where a phase of a power-on leaves the reset line. -/
def resetLineAfter : PowerPhase → ResetLine
  | .detectorHolds => .coldReset
  | .ends true => .lowSincePowerOn
  | .ends false => .released

/-- POWER_ON (R176). At the end of the cold reset every block holds its power-on values, and the operand says whether the
reset line is low then. While the detector holds the part, HORN and INTL are released and no event is taken; what the
records hold then cannot be seen, and the model has the power-on values there (log 31). The waiting commands are kept: a
command acts on everything but the queue (log 17). -/
def execPowerOn (phase : PowerPhase) (s : State) : Host.Outcome State Fault Refusal :=
  .next { State.reset with resetLine := resetLineAfter phase, pending := s.pending }

/-! ## The assertion of the reset line (R177) -/

/-- R142: the line is released and SILENT, the hold and stuck states, the counts and the latches are cleared, and every
beacon-answering flag is set; the settings in force stay. -/
def LineController.halt (l : LineController) : LineController := { LineController.powerOn with settings := l.settings }

/-- RESET_LINE_ASSERTION (R177): the part halts. The one-second phase is held at 0 (R110), the horn is released; the records
and the queue stand until the release. -/
def execResetLineAssertion (s : State) : Host.Outcome State Fault Refusal :=
  if s.resetLine = .released then
    .next { s with
      line := s.line.halt
      clock := { s.clock with oneSecondPhase := 0 }
      disp := { s.disp with horn := false }
      resetLine := .low }
  else .next s

/-! ## The warm restart (R178) -/

/-- The tries of a dropped offer are given back: on a SINGLE rung tries used goes down by one, on an ALL rung to 0 (R29). -/
def Call.refundTry (r : Option Rung) (c : Call) : Call :=
  match r with
  | some r => match r.mode with
    | .single _ => { c with triesUsed := c.triesUsed - 1 }
    | .all => { c with triesUsed := 0 }
  | none => c

/-- The warm restart at a call (R29, R110): an unheld live call gets hold RESTART, an OFFERED one becomes WAITING with its
offers dropped, and a pending expiry is removed by the hold. -/
def Call.warmRestart (r : Option Rung) (c : Call) : Call :=
  if !c.live then c
  else
    let c1 := { c with hold := some (c.hold.getD .restart), timer := { c.timer with expiryPending := false } }
    if c.state = .offered then { (c1.refundTry r).stopTimer with state := .waiting, offerees := [] } else c1

/-- The warm restart at a call slot. -/
def warmSlot (s : State) (x : CallSlot) : CallSlot := { x with call := x.call.map (fun c => c.warmRestart (s.rungOf c)) }

/-- R29. -/
def warmCalls (s : State) : CallTable :=
  { slots := s.calls.slots.map (warmSlot s)
    attentionQueue := s.calls.attentionQueue
    tableFull := { latched := false, origin := none, count := 0 } }

/-- R51, R163, R165: the offers are cleared, the latches are cleared and a walk is abandoned. -/
def Roster.warmRestart (r : Roster) : Roster :=
  { crews := r.crews.map (Option.map (fun c => { c with offer := none }))
    unknownBadge := { latched := false, badge := none, overrun := false }
    walk := Walk.reset
    shiftCutDone := { latched := false, switched := 0, withdrawn := 0, handedBack := 0 } }

/-- R61. -/
def SitePlan.warmRestart (p : SitePlan) : SitePlan :=
  if p.firstClose then { p with phase := .openWarm, autoClose := some Config.autoCloseSeconds, autoClosed := false }
  else { p with phase := .openCold, autoClose := none, autoClosed := false }

/-- R142: the Line Controller starts and waits for idle if the plan has been closed once, and stays SILENT otherwise. -/
def LineController.warmRestart (firstClose : Bool) (l : LineController) : LineController :=
  { l.halt with state := if firstClose then .busy .waitingForIdle else .silent }

/-- Every block takes its part of the warm restart (R178). A tick made before the assertion reaches no owner after the release
(R51, R68, R110; log 5). -/
def State.warmRestart (s : State) : State where
  calls := warmCalls s
  roster := s.roster.warmRestart
  plan := s.plan.warmRestart
  disp := Dispatcher.reset
  clock := { s.clock with oneSecondPhase := 0, tickDue := TickDue.none }
  queue := SendQueue.reset
  line := s.line.warmRestart s.plan.firstClose
  lampStale := s.lampStale
  port := HostPort.afterReset .warm
  resetLine := .released
  pending := s.pending

/-- WARM_RESTART (R178): the release of the reset line. A line that was low since before the end of the cold reset leaves the
power-on values unchanged, with cause COLD (R176). -/
def execWarmRestart (s : State) : Host.Outcome State Fault Refusal :=
  match s.resetLine with
  | .released | .coldReset => .next s
  | .low => .next s.warmRestart
  | .lowSincePowerOn => .next { s with resetLine := .released }

end Sys2Proof.Machine
end

