-- ==== Sys2Proof/Machine/RosterCommands.lean ====
section
/-! DEFINITION. The roster commands ENROL, AMEND, REMOVE_CREW, READ_CREW, SET_DUTY, STAGE_DUTY (chapter 2) and the shift cut, SHIFT_CUT and SHIFT_CUT_STEP (chapter 9). -/

namespace Sys2Proof.Machine

/-! ## ENROL and AMEND (R33, R34) -/

/-- The arguments of ENROL and AMEND (12.4). -/
structure CrewFields where
  badge : Badge
  trades : BitVec 4
  grade : Grade
  home : Zone
  deriving DecidableEq, Repr

def readCrewFields (s : State) : Option CrewFields :=
  match readBadge (s.arg 0) (s.arg 1), readTrades (s.arg 2), readGrade (s.arg 3).toNat, readZone (s.arg 4).toNat with
  | some b, some t, some g, some z => some { badge := b, trades := t, grade := g, home := z }
  | _, _, _, _ => none

/-- The record ENROL sets up: off duty and unheard (R33). -/
def newCrew (f : CrewFields) : Crew where
  badge := f.badge
  trades := f.trades
  grade := f.grade
  home := f.home
  duty := .off
  staged := none
  lastSeen := none
  sightAge := 255
  load := 0
  offer := none
  idle := 0

/-- The lowest-numbered unoccupied slot (R33). -/
def State.lowestUnoccupied (s : State) : Option CrewSlotNo := crewSlots.find? (fun k => (s.crew k).isNone)

/-- R33, with the checks of R32. -/
def enrolEffect (s : State) : CommandEffect :=
  match readCrewFields s with
  | none => refuseWith s .badField
  | some f =>
    if (s.enrolled f.badge).isSome then refuseWith s .duplicate
    else match s.lowestUnoccupied with
      | none => refuseWith s .full
      | some k => okWith (s.setCrew k (some (newCrew f))) [byteOf k.val]

/-- ENROL (R33). -/
def execEnrol (s : State) : Host.Outcome State Fault Refusal := runCommand .enrol enrolEffect s

/-- R34, with the checks of R32. -/
def amendEffect (s : State) : CommandEffect :=
  match readCrewFields s with
  | none => refuseWith s .badField
  | some f =>
    match s.enrolled f.badge with
    | none => refuseWith s .noSuch
    | some k =>
      okWith (s.modCrew k (fun c => { c with trades := f.trades, grade := f.grade, home := f.home })) [byteOf k.val]

/-- AMEND (R34). -/
def execAmend (s : State) : Host.Outcome State Fault Refusal := runCommand .amend amendEffect s

/-! ## Commands on an enrolled badge -/

/-- Checks 1 to 3 of R32 for a command whose badge stands in bytes 0–1. -/
def onCrew (needsClosed fieldsOk : Bool) (s : State) (body : CrewSlotNo → Crew → CommandEffect) : CommandEffect :=
  if needsClosed ∧ s.plan.phase ≠ .closed then refuseWith s .planOpen
  else if !fieldsOk || !badgeValid (word16 (s.arg 0) (s.arg 1)) then refuseWith s .badField
  else match s.enrolled (word16 (s.arg 0) (s.arg 1)) with
    | none => refuseWith s .noSuch
    | some k =>
      match s.crew k with
      | some c => body k c
      | none => refuseWith s .noSuch

/-! ## REMOVE_CREW (R35) -/

/-- Every offer-history entry that names a crew slot is deleted, in every call (R35 step 2). -/
def Call.forgetCrew (k : CrewSlotNo) (c : Call) : Call := { c with history := c.history.filter (fun e => e.crew ≠ k) }

def State.forgetCrew (s : State) (k : CrewSlotNo) : State :=
  callSlots.foldl (fun s i => s.modCall i (Call.forgetCrew k)) s

/-- R35. -/
def removeCrewEffect (s : State) : CommandEffect :=
  onCrew true true s (fun k c =>
    if c.load ≠ 0 then refuseWith s .loaded
    else okWith (((s.withdrawForHandover k).forgetCrew k).setCrew k none) [byteOf k.val])

/-- REMOVE_CREW (R35). -/
def execRemoveCrew (s : State) : Host.Outcome State Fault Refusal := runCommand .removeCrew removeCrewEffect s

/-! ## READ_CREW (R36) -/

/-- The crew slot that READ CREW names: by badge or by slot; the result that refuses it otherwise (R32, R36). -/
def State.selectCrew (s : State) : ResultCode × Option CrewSlotNo :=
  match (s.arg 0).toNat with
  | 0 =>
    match readBadge (s.arg 1) (s.arg 2) with
    | none => (.badField, none)
    | some b => (.noSuch, s.enrolled b)
  | 1 => if h : (s.arg 1).toNat < 48 then (.noSuch, some ⟨(s.arg 1).toNat, h⟩) else (.badField, none)
  | _ => (.badField, none)

/-- R36. -/
def readCrewEffect (s : State) : CommandEffect :=
  match s.selectCrew with
  | (r, none) => refuseWith s r
  | (r, some k) =>
    match s.crew k with
    | none => refuseWith s r
    | some c => okWith s (crewAnswer s k c)

/-- READ_CREW (R36). -/
def execReadCrew (s : State) : Host.Outcome State Fault Refusal := runCommand .readCrew readCrewEffect s

/-! ## SET_DUTY and STAGE_DUTY (R38, R42) -/

/-- A duty code: OFF 0, ON 1 (12.4). -/
def readDuty (n : Nat) : Option Duty :=
  match n with
  | 0 => some .off
  | 1 => some .on
  | _ => none

/-- R38: the answer holds the slot, the duty before, the offers withdrawn and the calls handed back. -/
def setDutyTo (s : State) (d : Duty) (k : CrewSlotNo) (c : Crew) : CommandEffect :=
  match d, c.duty with
  | .off, .on =>
    okWith (s.goOff k) [byteOf k.val, dutyByte c.duty, flagByte c.offer.isSome, byteOf (s.acceptedCalls k).length]
  | .on, _ => okWith (s.modCrew k (fun c => { c with duty := .on })) [byteOf k.val, dutyByte c.duty, 0, 0]
  | .off, .off => okWith s [byteOf k.val, dutyByte c.duty, 0, 0]

/-- R38, with the checks of R32. -/
def setDutyEffect (s : State) : CommandEffect :=
  onCrew true (readDuty (s.arg 2).toNat).isSome s (fun k c =>
    match readDuty (s.arg 2).toNat with
    | some d => setDutyTo s d k c
    | none => refuseWith s .badField)

/-- SET_DUTY (R38). -/
def execSetDuty (s : State) : Host.Outcome State Fault Refusal := runCommand .setDuty setDutyEffect s

/-- A staging code: OFF 0, ON 1, CLEAR 2 (12.4); CLEAR makes the staged duty absent. -/
def readStaging (n : Nat) : Option (Option Duty) :=
  match n with
  | 0 => some (some .off)
  | 1 => some (some .on)
  | 2 => some none
  | _ => none

/-- R42. -/
def stageDutyEffect (s : State) : CommandEffect :=
  onCrew false (readStaging (s.arg 2).toNat).isSome s (fun k c =>
    match readStaging (s.arg 2).toNat with
    | some d => okWith (s.modCrew k (fun c => { c with staged := d })) [byteOf k.val, byteOf (stagedCode c.staged)]
    | none => refuseWith s .badField)

/-- STAGE_DUTY (R42). -/
def execStageDuty (s : State) : Host.Outcome State Fault Refusal := runCommand .stageDuty stageDutyEffect s

/-! ## The shift cut (R157–R163) -/

def State.setWalk (s : State) (w : Walk) : State := { s with roster := { s.roster with walk := w } }

/-- SHIFT_CUT (R158): refused with PLAN OPEN in an open plan; otherwise the walk starts at slot 0 and the port stays
BUSY. -/
def execShiftCut (s : State) : Host.Outcome State Fault Refusal :=
  if s.commandDue HostCommand.shiftCut.code then
    if s.plan.phase ≠ .closed then .next (s.complete .planOpen [])
    else .next (s.setWalk { progress := .walking 0, switched := 0, withdrawn := 0, handedBack := 0 })
  else .next s

/-- The staged duty of a slot becomes absent. -/
def State.clearStaged (s : State) (k : CrewSlotNo) : State := s.modCrew k (fun c => { c with staged := none })

/-- A step at one slot (R160) and what it adds to the tallies (R161). -/
def walkSlot (s : State) (k : CrewSlotNo) (w : Walk) : State × Walk :=
  match s.crew k with
  | none => (s, w)
  | some c =>
    match c.staged, c.duty with
    | none, _ => (s, w)
    | some .on, .on => (s.clearStaged k, w)
    | some .off, .off => (s.clearStaged k, w)
    | some .on, .off => ((s.clearStaged k).modCrew k (fun c => { c with duty := .on }), { w with switched := w.switched + 1 })
    | some .off, .on =>
      ((s.clearStaged k).goOff k,
       { w with switched := w.switched + 1, withdrawn := w.withdrawn + c.offer.isSome.toNat,
                handedBack := w.handedBack + (s.acceptedCalls k).length })

/-- The completion of the walk (R162): the walk is IDLE, the answer holds the tallies, the result is OK, the SHIFT CUT DONE
latch is set, and the port is READY. -/
def finishWalk (s : State) (w : Walk) : State :=
  { s with roster := { s.roster with
      walk := { w with progress := .idle }
      shiftCutDone := { latched := true, switched := w.switched, withdrawn := w.withdrawn, handedBack := w.handedBack } } }.complete
    .ok [byteOf w.switched, byteOf w.withdrawn, byteOf w.handedBack]

/-- SHIFT_CUT_STEP (R159, R160): the step at the next slot; the step at slot 47 completes the walk. -/
def execShiftCutStep (s : State) : Host.Outcome State Fault Refusal :=
  if s.resetLine = .released then
    match s.roster.walk.progress with
    | .idle => .next s
    | .walking k =>
      let r := walkSlot s k s.roster.walk
      let s1 := settle s [] r.1
      if h : k.val + 1 < 48 then .next (s1.setWalk { r.2 with progress := .walking ⟨k.val + 1, h⟩ })
      else .next (finishWalk s1 r.2)
  else .next s

end Sys2Proof.Machine
end

