-- ==== Sys2Proof/Machine/Dispatch.lean ====
section
/-! DEFINITION. exec: one arm for each command, one call of its meaning. -/

namespace Sys2Proof.Machine

def exec (i : Instr) (s : State) : Host.Outcome State Fault Refusal :=
  match i with
  | .raise source body => Sys2Proof.Machine.execRaise source body s
  | .cancel source body => Sys2Proof.Machine.execCancel source body s
  | .pointHello source dest body => Sys2Proof.Machine.execPointHello source dest body s
  | .key source body => Sys2Proof.Machine.execKey source body s
  | .sight source dest body => Sys2Proof.Machine.execSight source dest body s
  | .beaconHello source dest body => Sys2Proof.Machine.execBeaconHello source dest body s
  | .receptionError heard => Sys2Proof.Machine.execReceptionError heard s
  | .hostRaise => Sys2Proof.Machine.execHostRaise s
  | .readCall => Sys2Proof.Machine.execReadCall s
  | .findCalls => Sys2Proof.Machine.execFindCalls s
  | .hold => Sys2Proof.Machine.execHold s
  | .resume => Sys2Proof.Machine.execResume s
  | .closeCall => Sys2Proof.Machine.execCloseCall s
  | .retire => Sys2Proof.Machine.execRetire s
  | .assign => Sys2Proof.Machine.execAssign s
  | .escalate => Sys2Proof.Machine.execEscalate s
  | .repage => Sys2Proof.Machine.execRepage s
  | .enrol => Sys2Proof.Machine.execEnrol s
  | .amend => Sys2Proof.Machine.execAmend s
  | .removeCrew => Sys2Proof.Machine.execRemoveCrew s
  | .readCrew => Sys2Proof.Machine.execReadCrew s
  | .setDuty => Sys2Proof.Machine.execSetDuty s
  | .stageDuty => Sys2Proof.Machine.execStageDuty s
  | .shiftCut => Sys2Proof.Machine.execShiftCut s
  | .shiftCutStep => Sys2Proof.Machine.execShiftCutStep s
  | .planWrite => Sys2Proof.Machine.execPlanWrite s
  | .planRead => Sys2Proof.Machine.execPlanRead s
  | .planClose => Sys2Proof.Machine.execPlanClose s
  | .silenceHorn => Sys2Proof.Machine.execSilenceHorn s
  | .lineState => Sys2Proof.Machine.execLineState s
  | .unknownCommand => Sys2Proof.Machine.execUnknownCommand s
  | .bufferWrite loc value => Sys2Proof.Machine.execBufferWrite loc value s
  | .statusRead => Sys2Proof.Machine.execStatusRead s
  | .noticeTake => Sys2Proof.Machine.execNoticeTake s
  | .noticeMaskWrite value => Sys2Proof.Machine.execNoticeMaskWrite value s
  | .ignoredWrite loc value => Sys2Proof.Machine.execIgnoredWrite loc value s
  | .powerOn phase => Sys2Proof.Machine.execPowerOn phase s
  | .resetLineAssertion => Sys2Proof.Machine.execResetLineAssertion s
  | .warmRestart => Sys2Proof.Machine.execWarmRestart s
  | .tick part => Sys2Proof.Machine.execTick s part
  | .minute part => Sys2Proof.Machine.execMinute s part
  | .offerExpiry slot => Sys2Proof.Machine.execOfferExpiry slot s
  | .travelExpiry slot => Sys2Proof.Machine.execTravelExpiry slot s
  | .retryExpiry slot => Sys2Proof.Machine.execRetryExpiry slot s
  | .autoClose => Sys2Proof.Machine.execAutoClose s
  | .dispatchTurn => Sys2Proof.Machine.execDispatchTurn s
  | .lineIdle => Sys2Proof.Machine.execLineIdle s
  | .frameSendStart => Sys2Proof.Machine.execFrameSendStart s
  | .arbitrationLoss mismatch => Sys2Proof.Machine.execArbitrationLoss mismatch s
  | .bitFault mismatch => Sys2Proof.Machine.execBitFault mismatch s
  | .frameSent => Sys2Proof.Machine.execFrameSent s
  | .receiptTaken receipt => Sys2Proof.Machine.execReceiptTaken receipt s
  | .noReceipt => Sys2Proof.Machine.execNoReceipt s
  | .receiptEchoMismatch => Sys2Proof.Machine.execReceiptEchoMismatch s
  | .lineHold => Sys2Proof.Machine.execLineHold s
  | .lineHoldRepeat => Sys2Proof.Machine.execLineHoldRepeat s
  | .lineStuck => Sys2Proof.Machine.execLineStuck s
  | .lineClear => Sys2Proof.Machine.execLineClear s
  | .dominantEdge => Sys2Proof.Machine.execDominantEdge s
  | .commandTaken value => Sys2Proof.Machine.execCommandTaken value s

end Sys2Proof.Machine
end

