-- ==== Sys2Proof/Machine/Step.lean ====
section
/-! DEFINITION. step: the command at the front of the queue is taken and run. -/

namespace Sys2Proof.Machine

/-- One step: the command at the front of the queue runs on the state with the rest of the queue; on an empty queue the
part idles (log 1). -/
def step (s : State) : Host.Outcome State Fault Refusal :=
  match s.pending with
  | [] => .next s
  | c :: rest => exec c (s.setPending rest)

/-- The command that a word spells put at the front of the queue; a word that spells none changes nothing. No row of the
table gives bits, so no word spells one (log 33). -/
def State.withFetchWord (s : State) (nbits w : Nat) : State :=
  match Sys2Proof.decodeTableWord nbits w with
  | some c => s.setPending (c :: s.pending)
  | none => s

end Sys2Proof.Machine
end

