-- ==== Sys2Proof/Safety.lean ====
section
/-! DEFINITION. The words that the statements use: when an event can come, what an event leaves alone, and the laws that every step keeps. -/

namespace Sys2Proof.Machine

/-! ## When an event can come -/

/-- A host command of this code has been taken and waits for its completion (R168); no walk is in progress (R158). -/
def CommandWaits (code : Byte) (s : State) : Prop :=
  s.resetLine = .released ∧ s.port.busy = true ∧ s.port.code = code ∧ s.roster.walk.progress = .idle

/-- A frame of another node can be handed over outside a receipt window: the controller runs, and neither waits for its first
idle nor sends (R129, R134; log 4). -/
def HearsFrames (s : State) : Prop :=
  s.resetLine = .released ∧
    (s.line.state = .idle ∨ s.line.state = .busy .receiving ∨ s.line.state = .busy .frameOver ∨
      ∃ bytes, s.line.state = .busy (.drivingReceipt bytes))

/-- The TF6448 has a frame of its own on the line (R130). -/
def Sends (s : State) : Prop := s.resetLine = .released ∧ ∃ f, s.line.state = .busy (.sending f)

/-- The TF6448 waits for the receipt of its frame or reads it (R133). -/
def InReceiptWindow (s : State) : Prop := s.resetLine = .released ∧ s.line.state = .busy .receiptWindow

/-- A command brings in a frame of another node, whole or with an error (R134, R135). -/
def BringsAFrame (c : Instr) : Prop := ∃ cls f, Instr.fieldFrame cls c = some f

/-- The line while the TF6448 drives a receipt: code, data where there are some, and the check byte over them (R136). -/
def drives (bytes : List Byte) : LineState := .busy (.drivingReceipt (bytes ++ [crc (bytes.flatMap bitsOf)]))

/-- The body of a RAISE: trade and class (R182). -/
def raiseBody (t : Trade) (c : CallClass) : List Byte := [byteOf (tradeIndex t).val, byteOf (classRank c)]

/-- The body of a KEY: tag, badge, key code (R182). -/
def keyBody (tag : Tag) (b : Badge) (keyCode : Byte) : List Byte := [tag.byte, hiByte b, loByte b, keyCode]

/-- The state after the sighting of an enrolled crew by a frame of zone z's beacon: the beacon-answering flag is set (R139),
the last-seen zone and the age are written (R46, R47). -/
def sighted (s : State) (z : Zone) (k : CrewSlotNo) : State :=
  (s.setAnswering z true).modCrew k (fun c => { c with lastSeen := some z, sightAge := 0 })

/-- The call in slot i is live, of this origin and trade, and the only such call (R7). -/
def IsLiveCall (s : State) (o : Origin) (t : Trade) (i : CallSlotNo) (c : Call) : Prop :=
  s.call i = some c ∧ c.state ≠ .closed ∧ c.origin = o ∧ c.trade = t ∧
    ∀ j d, s.call j = some d → d.state ≠ .closed → d.origin = o → d.trade = t → j = i

/-- No live call of an origin and a trade. -/
def NoLiveCall (s : State) (o : Origin) (t : Trade) : Prop :=
  ∀ j d, s.call j = some d → d.origin = o → d.trade = t → d.state = .closed

/-- The tag argument of the command in the buffer names this call (R3, R24). -/
def TagNames (s : State) (i : CallSlotNo) (c : Call) : Prop := Tag.ofByte (s.arg 0) = s.tagOf i ∧ s.call i = some c

/-- The badges of a body, each where it is named first (R46). -/
def firstNamings : List Badge → List Badge
  | [] => []
  | b :: bs => b :: (firstNamings bs).filter (· ≠ b)

/-! ## The laws that every step keeps -/

/-- R112: at most 24 entries, STOP before URGENT before ROUTINE. -/
def QueueOk (s : State) : Prop :=
  s.queue.entries.length ≤ 24 ∧ s.queue.entries.Pairwise (fun a b => classRank b.band ≤ classRank a.band)

/-- R111, R129, R133, R141, R177: at most one entry is in flight, and only while the TF6448 sends its frame or waits for the
receipt; the line is SILENT in the cold session and while the reset line is low. -/
def LineOk (s : State) : Prop :=
  (s.queue.entries.filter (fun e => e.inFlight)).length ≤ 1 ∧
    (s.resetLine = .released → (∃ e ∈ s.queue.entries, e.inFlight = true) →
      s.line.state = .busy .receiptWindow ∨ ∃ f, s.line.state = .busy (.sending f)) ∧
    (s.plan.phase = .openCold → s.line.state = .silent) ∧ (s.resetLine ≠ .released → s.line.state = .silent) ∧
    (s.resetLine = .lowSincePowerOn → s.queue.entries = [])

/-- R112: among the entries that are not in flight there is at most one PAGE for each pair of tag and badge, and at most one LAMP
for each point. -/
def PairsOk (s : State) : Prop :=
  (∀ tag b, (s.queue.entries.filter (fun e => e.pendingPage tag b)).length ≤ 1) ∧
    ∀ p, (s.queue.entries.filter (fun e => e.pendingLamp p)).length ≤ 1

/-- R22: the attention queue holds each call at most once, and exactly the calls whose attention set is not empty. -/
def AttentionOk (s : State) : Prop :=
  s.calls.attentionQueue.Nodup ∧ ∀ i, i ∈ s.calls.attentionQueue ↔ ∃ c, s.call i = some c ∧ c.attention ≠ 0

/-- R69: the dispatch list holds each call at most once, exactly the calls that are WAITING and not held, STOP first. -/
def DispatchOk (s : State) : Prop :=
  s.disp.list.Nodup ∧ (∀ i, i ∈ s.disp.list ↔ ∃ c, s.call i = some c ∧ c.state = .waiting ∧ c.hold = none) ∧
    s.disp.list.Pairwise (fun i j => s.bandOf j ≤ s.bandOf i)

/-- R30, R31: badges are 1 to 65534, and no two occupied slots carry the same one. -/
def BadgesOk (s : State) : Prop :=
  (∀ k c, s.crew k = some c → c.badge ≠ 0 ∧ c.badge ≠ 0xFFFF) ∧
    ∀ k l c d, s.crew k = some c → s.crew l = some d → c.badge = d.badge → k = l

/-- R1, R2, R11, R30, R105, R140: the counts stay in their ranges, and a history holds at most eight entries. -/
def RangesOk (s : State) : Prop :=
  (∀ i c, s.call i = some c →
    1 ≤ c.raiseCount ∧ c.raiseCount ≤ 15 ∧ c.unclaimedRounds ≤ 15 ∧ c.age ≤ 255 ∧ c.history.length ≤ 8) ∧
    (∀ k c, s.crew k = some c → c.sightAge ≤ 255 ∧ c.idle ≤ 255) ∧
    s.calls.tableFull.count ≤ 255 ∧ s.clock.minuteCount ≤ 59 ∧ s.line.receiveErrors ≤ 255 ∧ s.line.sendFaults ≤ 255

/-- What a call's state says of its other fields (R1, R2, R98). -/
def CallOk (c : Call) : Prop :=
  (c.offerees = [] ↔ c.state ≠ .offered) ∧ c.offerees.Nodup ∧ (c.state = .offered → c.hold = none) ∧
    (c.holder.isSome = true ↔ c.state = .accepted ∨ c.state = .attending) ∧
    (c.timer.mode = .offer ↔ c.state = .offered) ∧ (c.timer.mode = .retry ↔ c.state = .unclaimed) ∧
    (c.timer.mode = .travel → c.state = .accepted)

/-- Offers and holdings agree on both records: R1, R2 and R98 at every call, R43 and R44 at every crew, and the law of R31
that holders and offerees are occupied slots. -/
def BindingOk (s : State) : Prop :=
  (∀ i c, s.call i = some c → CallOk c ∧ (∀ k ∈ c.offerees, (s.crew k).isSome = true) ∧
    ∀ k, c.holder = some k → (s.crew k).isSome = true) ∧
    ∀ k cr, s.crew k = some cr →
      (∀ t, cr.offer = some t ↔ ∃ c, t = s.tagOf t.slot ∧ s.call t.slot = some c ∧ k ∈ c.offerees) ∧
        cr.load = (s.heldCalls k).length

/-- The horn is on exactly when an unheld STOP call is UNCLAIMED and silenced is clear (R95). -/
def HornRight (s : State) : Prop :=
  s.disp.horn = true ↔
    (∃ i c, s.call i = some c ∧ c.state = .unclaimed ∧ c.hold = none ∧ c.cls = .stop) ∧ s.disp.silenced = false

/-- R95, R177: the horn is right; between the assertion of the reset line and its release it is off whatever the calls hold. -/
def HornOk (s : State) : Prop := s.resetLine ≠ .low → HornRight s

/-- Two plans of equal contents (R52 to R58). -/
def SameContents (p q : SitePlan) : Prop :=
  p.zones = q.zones ∧ p.points = q.points ∧ p.ladders = q.ladders ∧ p.loadLimit = q.loadLimit ∧
    p.sightingWindow = q.sightingWindow ∧ p.thresholdLow = q.thresholdLow ∧ p.thresholdHigh = q.thresholdHigh ∧
    p.attemptLimit = q.attemptLimit ∧ p.lineSettings = q.lineSettings

/-! ## What an event leaves alone -/

/-- The blocks that neither a call's event nor its entries reach: the plan, the clocks, the line but its state and its
beacon-answering flags, the latches, the walk, the silenced flag, the reset line and the queue of commands. -/
def KeepsRest (s t : State) : Prop :=
  t.plan = s.plan ∧ t.clock = s.clock ∧
    t.line = { s.line with state := t.line.state, answering := t.line.answering } ∧
    t.roster.unknownBadge = s.roster.unknownBadge ∧ t.roster.walk = s.roster.walk ∧
    t.roster.shiftCutDone = s.roster.shiftCutDone ∧ t.calls.tableFull = s.calls.tableFull ∧
    t.disp.silenced = s.disp.silenced ∧ t.resetLine = s.resetLine ∧ t.pending = s.pending

/-- Every call outside the exception that has lost no offer is as before; one with offers can only have lost some of them, with
the history entry, the try and the state that go with the loss (R77, R90). -/
def KeepsCalls (s t : State) (except : CallSlotNo → Prop) : Prop :=
  ∀ j, ¬ except j → (t.slot j).generation = (s.slot j).generation ∧ (s.call j = none → t.call j = none) ∧
    ∀ c, s.call j = some c → (c.offerees = [] → t.call j = some c) ∧
      ∃ d, t.call j = some d ∧ d.offerees.Sublist c.offerees ∧ (d.offerees = c.offerees → d = c) ∧
        d = { c with state := d.state, triesUsed := d.triesUsed, offerees := d.offerees, history := d.history, timer := d.timer }

/-- Every crew outside the exception is as before, but that an outstanding offer may have ended. -/
def KeepsCrews (s t : State) (except : CrewSlotNo → Prop) : Prop :=
  ∀ k, ¬ except k → (s.crew k = none → t.crew k = none) ∧
    ∀ c, s.crew k = some c → t.crew k = some c ∨ t.crew k = some { c with offer := none }

/-- The entries of the Send Queue are old ones, or LAMPs. -/
def OnlyLampsJoin (s t : State) : Prop := ∀ e ∈ t.queue.entries, e ∈ s.queue.entries ∨ ∃ p l, e.content = .lamp p l

/-! ## What an event tells pagers and points -/

/-- No WITHDRAW for a pair of tag and badge has joined the Send Queue or left it. -/
def NoNewWithdraw (s t : State) (tag : Tag) (b : Badge) : Prop :=
  t.queue.entries.filter (Entry.isWithdraw tag b) = s.queue.entries.filter (Entry.isWithdraw tag b)

/-- One WITHDRAW for a pair of tag and badge has joined the Send Queue, with this reason and class. -/
def OneNewWithdraw (s t : State) (tag : Tag) (b : Badge) (cls : CallClass) (reason : WithdrawReason) : Prop :=
  Entry.fresh (.withdraw { tag := tag, badge := b, reason := reason, cls := cls }) cls ∈ t.queue.entries ∧
    (t.queue.entries.filter (Entry.isWithdraw tag b)).length = (s.queue.entries.filter (Entry.isWithdraw tag b)).length + 1

/-- The pager of a former offeree is told (R12): a pending PAGE of the pair is removed unsent, and a WITHDRAW is queued unless
that PAGE was there and none was in flight. -/
def PagerTold (s t : State) (i : CallSlotNo) (b : Badge) (cls : CallClass) (reason : WithdrawReason) : Prop :=
  (∀ e ∈ t.queue.entries, e.pendingPage (s.tagOf i) b = false) ∧
    ((∃ e ∈ s.queue.entries, e.pendingPage (s.tagOf i) b = true) →
      (∀ e ∈ s.queue.entries, e.inFlight = true → e.isPage (s.tagOf i) b = false) → NoNewWithdraw s t (s.tagOf i) b) ∧
    ((∀ e ∈ s.queue.entries, e.pendingPage (s.tagOf i) b = false) ∨
      (∃ e ∈ s.queue.entries, e.inFlight = true ∧ e.isPage (s.tagOf i) b = true) →
      OneNewWithdraw s t (s.tagOf i) b cls reason)

/-- The pager of every offeree of a call but an excepted one is told (R12, R85). -/
def OffereesTold (s t : State) (i : CallSlotNo) (c : Call) (cls : CallClass) (reason : WithdrawReason)
    (except : CrewSlotNo → Prop) : Prop :=
  ∀ k ∈ c.offerees, ¬ except k → ∀ cr, s.crew k = some cr → PagerTold s t i cr.badge cls reason

/-- A former holder is told (R40, R87): a pending PAGE in ASSIGNED mode of the pair is removed unsent, and otherwise a WITHDRAW
is queued (log 10). -/
def FormerHolderTold (s t : State) (i : CallSlotNo) (b : Badge) (cls : CallClass) (reason : WithdrawReason) : Prop :=
  ((∃ e ∈ s.queue.entries, e.pendingPage (s.tagOf i) b = true ∧ e.isAssigned = true) →
    (∀ e ∈ t.queue.entries, e.pendingPage (s.tagOf i) b = true → e.isAssigned = false) ∧
      NoNewWithdraw s t (s.tagOf i) b) ∧
    ((∀ e ∈ s.queue.entries, e.pendingPage (s.tagOf i) b = true → e.isAssigned = false) →
      OneNewWithdraw s t (s.tagOf i) b cls reason)

/-- The Send Queue has room for the WITHDRAWs that the end of every offer of a call can ask for, and for a number of entries
more, so that nothing is refused or displaced. -/
def RoomFor (s : State) (c : Call) (more : Nat) : Prop := s.queue.entries.length + c.offerees.length + more ≤ 24

/-- A pending LAMP of a point shows the states and the class of its live calls (R153, R154). -/
def LampQueued (t : State) (p : Point) : Prop :=
  ∃ e ∈ t.queue.entries, e.inFlight = false ∧ e.content = .lamp p (t.lampStates p) ∧ e.band = t.lampBand p

/-- The point of a call, if it has one, is sent its lamp states (R13). -/
def PointTold (t : State) (c : Call) : Prop := ∀ p, c.origin = .point p → LampQueued t p

/-- The points that have a live call (R180). -/
def HasLiveCall (s : State) (p : Point) : Prop := ∃ i c, s.call i = some c ∧ c.state ≠ .closed ∧ c.origin = .point p

/-- The low and the high threshold in force: 8 and 18 for a pair of zeros, else the plan's (R120). -/
def lowMark (s : State) : Nat := if s.plan.thresholdLow = 0 ∧ s.plan.thresholdHigh = 0 then 8 else s.plan.thresholdLow
def highMark (s : State) : Nat := if s.plan.thresholdLow = 0 ∧ s.plan.thresholdHigh = 0 then 18 else s.plan.thresholdHigh

/-- The throttled flag and the QUEUE HIGH notice after the comparison at a new count (R120). -/
def Compared (s : State) (count : Nat) (throttled queueHigh : Bool) : Prop :=
  if s.queue.throttled = false ∧ highMark s ≤ count then throttled = true ∧ queueHigh = true
  else throttled = (s.queue.throttled && decide (lowMark s < count)) ∧ queueHigh = s.queue.queueHigh

/-- The comparison at the end of an event that has changed the count; an event that has not makes none (R120). -/
def ComparedAtEnd (s t : State) : Prop :=
  (t.queue.entries.length ≠ s.queue.entries.length →
    Compared s t.queue.entries.length t.queue.throttled t.queue.queueHigh) ∧
  (t.queue.entries.length = s.queue.entries.length →
    t.queue.throttled = s.queue.throttled ∧ t.queue.queueHigh = s.queue.queueHigh)

/-- A live call of a point stands in a slot with this state and class: what the lamps of the point can show of the slot
(R153). -/
def LampShows (s : State) (p : Point) (i : CallSlotNo) (gen : Fin 4) (st : CallState) (cls : CallClass) : Prop :=
  ∃ c, s.call i = some c ∧ c.state ≠ .closed ∧ c.origin = .point p ∧ (s.slot i).generation = gen ∧ c.state = st ∧
    c.cls = cls

/-- A lamp update of a point on a state that has none yet (R113, R114, R154): a pending LAMP is rewritten, and moves only when
its band changes; otherwise the LAMP joins where there is room, takes the place of the youngest pending ROUTINE entry where its
band is STOP and the queue is full, and else is refused and makes the point lamp-stale. -/
def LampUpdated (s t : State) (p : Point) : Prop :=
  (∀ a e b, s.queue.entries = a ++ e :: b → e.pendingLamp p = true → (∀ x ∈ a ++ b, x.pendingLamp p = false) →
    t = s.setEntries (if e.band = s.lampBand p then a ++ { e with content := .lamp p (s.lampStates p) } :: b
      else joinTail { e with content := .lamp p (s.lampStates p), band := s.lampBand p } (a ++ b))) ∧
  ((∀ x ∈ s.queue.entries, x.pendingLamp p = false) →
    (s.queue.entries.length < 24 → ∃ throttled queueHigh, Compared s (s.queue.entries.length + 1) throttled queueHigh ∧
      t = { s with queue := {
        entries := joinTail (Entry.fresh (.lamp p (s.lampStates p)) (s.lampBand p)) s.queue.entries
        throttled := throttled, queueHigh := queueHigh } }) ∧
    (24 ≤ s.queue.entries.length →
      (s.lampBand p ≠ .stop ∨ (∀ x ∈ s.queue.entries, x.pendingRoutine = false) → t = s.setLampStale p true) ∧
      ∀ a d b, s.lampBand p = .stop → s.queue.entries = a ++ d :: b → d.pendingRoutine = true →
        (∀ x ∈ b, x.pendingRoutine = false) →
        (∀ w, d.content = .withdraw w →
          t = s.setEntries (joinTail (Entry.fresh (.lamp p (s.lampStates p)) .stop) (a ++ b))) ∧
        (∀ q x, d.content = .lamp q x →
          t = (s.setLampStale q true).setEntries (joinTail (Entry.fresh (.lamp p (s.lampStates p)) .stop) (a ++ b))) ∧
        ∀ g, d.content = .page g → LampQueued t p ∧ KeepsRest s t ∧ KeepsCalls s t (fun _ => False) ∧
          KeepsCrews s t (fun _ => False)))

/-! ## What an event leaves in a call -/

/-- A call stands at the tail of the band of its class in the dispatch list (R69): behind it are only calls of a lower class, and
calls that joined the list in the same event. -/
def StandsLast (s t : State) (i : CallSlotNo) : Prop :=
  ∃ before after, t.disp.list = before ++ i :: after ∧ (∀ j ∈ before, t.bandOf i ≤ t.bandOf j) ∧
    ∀ j ∈ after, t.bandOf j < t.bandOf i ∨ j ∉ s.disp.list

/-- A call has joined the dispatch list, at the tail of its band (R69). -/
def Joins (s t : State) (i : CallSlotNo) : Prop := i ∈ t.disp.list ∧ (DispatchOk s → StandsLast s t i)

/-- The last eight entries of a history (R2). -/
def lastEight (h : List HistoryEntry) : List HistoryEntry := h.drop (h.length - 8)

/-- A history with a WITHDRAWN entry for each of a list of crews, in their order (R12). -/
def allWithdrawn (h : List HistoryEntry) (crews : List CrewSlotNo) : List HistoryEntry :=
  crews.foldl (fun h k => lastEight (h ++ [{ crew := k, outcome := .withdrawn }])) h

/-- A call that stops its timer: the count stays (R98). -/
def stopped (c : Call) : CallTimer := { mode := .none, count := c.timer.count, expiryPending := false }

/-- A timer loaded with the travel allowance of a ladder, or stopped where it has none (R79, R92). -/
def travelLoaded (s : State) (c : Call) : CallTimer :=
  match (s.ladderOf c).bind (fun l => l.travel) with
  | some n => { mode := .travel, count := n, expiryPending := false }
  | none => stopped c

/-- A call as its close leaves it (R14): the history and the tries keep what the ends of its offers have made of them. -/
def ClosedAs (reason : CloseReason) (c d : Call) : Prop :=
  d = { c with
    state := .closed, closeReason := some reason, reported := false, holder := none, hold := none, offerees := [],
    attention := c.attention ||| 0x80, timer := stopped c, history := d.history, triesUsed := d.triesUsed } ∧
  (c.offerees = [] → d.history = c.history ∧ d.triesUsed = c.triesUsed)

/-- What the close of a call tells, where the Send Queue has room (R14): its offers are withdrawn one after another, its
offerees' pagers are told, its holder's by a WITHDRAW (log 11), and its point. -/
def CloseTold (s t : State) (i : CallSlotNo) (c d : Call) : Prop :=
  d.history = allWithdrawn c.history c.offerees ∧ d.triesUsed = c.triesUsed ∧ PointTold t c ∧
    (BadgesOk s → OffereesTold s t i c c.cls .closed (fun _ => False)) ∧
    ∀ k cr, c.holder = some k → s.crew k = some cr → OneNewWithdraw s t (s.tagOf i) cr.badge c.cls .closed

/-- A call as the expiry of its OFFER timer leaves it (R85); where the queue has room for a WITHDRAW to each offeree, the
history gains one LAPSED entry for each, in their order, and the tries stay. -/
def LapsedAs (s : State) (c d : Call) : Prop :=
  d = { c with
    state := .waiting, offerees := [], timer := { mode := .none, count := d.timer.count, expiryPending := false },
    history := d.history, triesUsed := d.triesUsed } ∧
  (s.queue.entries.length + c.offerees.length ≤ 24 → d.triesUsed = c.triesUsed ∧
    d.history = c.offerees.foldl (fun h k => lastEight (h ++ [{ crew := k, outcome := .lapsed }])) c.history)

/-- A call as the expiry of its TRAVEL timer leaves it (R86, R87). -/
def OverdueAs (l : Ladder) (k : CrewSlotNo) (c d : Call) : Prop :=
  (l.reclaim = false → d = { c with
    attention := c.attention ||| 0x10, timer := { mode := .none, count := d.timer.count, expiryPending := false } }) ∧
  (l.reclaim = true → d = { c with
    state := .waiting, holder := none, attention := c.attention ||| 0x10 ||| 0x20,
    timer := { mode := .none, count := d.timer.count, expiryPending := false },
    history := lastEight (c.history ++ [{ crew := k, outcome := .lapsed }]), rung := d.rung, triesUsed := d.triesUsed } ∧
    (c.rung + 1 < l.rungs.length → d.rung = c.rung + 1 ∧ d.triesUsed = 0) ∧
    ∀ r, l.rungs.length = c.rung + 1 → l.rungs[c.rung]? = some r → d.rung = c.rung ∧ d.triesUsed = r.tries)

/-- A call as the expiry of its RETRY timer leaves it (R88). -/
def RetriedAs (c d : Call) : Prop :=
  d = { c with
    state := .waiting, rung := 0, triesUsed := 0, history := [],
    timer := { mode := .none, count := d.timer.count, expiryPending := false } }

/-- A call as the resume pass leaves it (R180); one without a RESTART hold is not reached. -/
def ResumedAs (s : State) (c d : Call) : Prop :=
  (c.hold ≠ some .restart → d = c) ∧
  (c.hold = some .restart → c.state = .waiting ∨ c.state = .attending → d = { c with hold := none }) ∧
  (c.hold = some .restart → c.state = .accepted → d = { c with hold := none, timer := travelLoaded s c }) ∧
  ∀ l, c.hold = some .restart → c.state = .unclaimed → s.ladderOf c = some l →
    d = { c with hold := none, timer := { mode := .retry, count := l.retry, expiryPending := false } }

/-- A call as the tick at its timer leaves it (R99): a running count above 0 goes down by one, and the step from 1 to 0 sets the
pending-expiry mark. -/
def TicksTo (c d : Call) : Prop :=
  (c.timer.mode ≠ .none → c.hold = none → c.timer.count ≠ 0 → d = { c with timer :=
    { mode := c.timer.mode, count := c.timer.count - 1, expiryPending := c.timer.count = 1 || c.timer.expiryPending } }) ∧
    (c.timer.mode = .none ∨ c.hold ≠ none ∨ c.timer.count = 0 → d = c)

/-- A call as the minute leaves it (R107). -/
def agedCall (c : Call) : Call := { c with age := if c.state = .closed then c.age else min 255 (c.age + 1) }

/-- A crew as the minute leaves it (R108), and as the tick leaves it (R106). -/
def idledCrew (c : Crew) : Crew := { c with idle := if c.load = 0 then min 255 (c.idle + 1) else c.idle }
def tickedCrew (c : Crew) : Crew := { c with sightAge := min 255 (c.sightAge + 1) }

/-- A minute made at the minute count's last tick is on its way to every owner besides those that were (R105; log 5). -/
def MinuteMade (s t : State) : Prop :=
  (∀ i : CallSlotNo, t.clock.minuteDue.ages[i] = s.clock.minuteDue.ages[i] + 1) ∧
    ∀ k : CrewSlotNo, t.clock.minuteDue.idles[k] = s.clock.minuteDue.idles[k] + 1

/-- The minute count after a tick (R105): the tick that would take it to 60 sets it to 0 and makes a minute. -/
def MinuteCounted (s t : State) : Prop :=
  (s.clock.minuteCount ≠ 59 → t.clock.minuteCount = s.clock.minuteCount + 1 ∧ t.clock.minuteDue = s.clock.minuteDue) ∧
    (s.clock.minuteCount = 59 → t.clock.minuteCount = 0 ∧ MinuteMade s t)

/-- The port after the completion of a command: result, answer and READY (R168); the rest of the port as it stood. -/
def Completes (s t : State) (r : ResultCode) (answer : List Byte) : Prop := t.port = (s.complete r answer).port

/-- What one event on the call in slot i leaves alone. -/
def OnlyReaches (s t : State) (i : CallSlotNo) : Prop :=
  KeepsRest s t ∧ KeepsCalls s t (· = i) ∧ KeepsCrews s t (fun _ => False)

/-- The record of a new call, its attention NEW (R10). -/
def raisedCall (o : Origin) (z : Zone) (t : Trade) (cl : CallClass) : Call where
  state := .waiting
  origin := o
  zone := z
  trade := t
  cls := cl
  raiseCount := 1
  rung := 0
  triesUsed := 0
  offerees := []
  history := []
  holder := none
  timer := { mode := .none, count := 0, expiryPending := false }
  hold := none
  unclaimedRounds := 0
  age := 0
  closeReason := none
  reported := false
  attention := 0x01

/-- The slot that a new call takes: the lowest FREE one, or where there is none the lowest whose call is CLOSED and
reported (R9). -/
def TakesSlot (s : State) (i : CallSlotNo) : Prop :=
  (s.call i = none ∧ ∀ j, j < i → s.call j ≠ none) ∨
    ((∀ j, s.call j ≠ none) ∧ (∃ c, s.call i = some c ∧ c.state = .closed ∧ c.reported = true) ∧
      ∀ j d, j < i → s.call j = some d → ¬ (d.state = .closed ∧ d.reported = true))

/-- Every slot holds a call that cannot be reclaimed (R9). -/
def TableIsFull (s : State) : Prop := ∀ i, ∃ c, s.call i = some c ∧ ¬ (c.state = .closed ∧ c.reported = true)

/-- A call has been made in a slot: its generation advances, and it joins the attention queue and the dispatch list (R3, R10,
R22). -/
def MadeAs (s t : State) (i : CallSlotNo) (c : Call) : Prop :=
  t.slot i = { generation := (s.slot i).generation + 1, call := some c } ∧
    t.calls.attentionQueue = (if s.call i = none then s.calls.attentionQueue
      else s.calls.attentionQueue.filter (· ≠ i)) ++ [i] ∧
    Joins s t i

/-- A call as an upgrade to a class with this ladder leaves it (R8), by the state in which the upgrade finds it. -/
def UpgradedAs (s t : State) (i : CallSlotNo) (l : Ladder) (cls : CallClass) (c d : Call) : Prop :=
  d = { c with
    cls := cls, raiseCount := min 15 (c.raiseCount + 1), attention := c.attention ||| 0x40, state := d.state, rung := d.rung,
    triesUsed := d.triesUsed, offerees := d.offerees, timer := d.timer, history := d.history } ∧
  (c.state = .waiting ∨ c.state = .offered ∨ c.state = .unclaimed →
    d.state = .waiting ∧ d.rung = 0 ∧ d.triesUsed = 0 ∧ d.offerees = [] ∧ d.timer = stopped c ∧
      (c.hold = none → Joins s t i) ∧ (c.hold ≠ none → i ∉ t.disp.list)) ∧
  (c.state ≠ .offered → d.history = c.history) ∧
  (c.state = .accepted ∨ c.state = .attending →
    d.state = c.state ∧ d.timer = c.timer ∧ d.offerees = c.offerees ∧
      (l.rungs.length ≤ c.rung → d.rung = l.rungs.length - 1 ∧ d.triesUsed = 0) ∧
      ∀ r, l.rungs[c.rung]? = some r → d.rung = c.rung ∧ d.triesUsed = min c.triesUsed r.tries) ∧
  (c.state = .unclaimed → HornRight t) ∧ (c.state ≠ .unclaimed → t.disp.horn = s.disp.horn) ∧
  (RoomFor s c 2 → d.history = allWithdrawn c.history c.offerees ∧ PointTold t d ∧
    (BadgesOk s → OffereesTold s t i c cls .preEmpted (fun _ => False)))

/-- A call as the end of one offer by a withdrawal leaves it: the crew is no offeree, the history gains a WITHDRAWN entry, and a
call without offerees waits (R12, R39, R77, R90). What becomes of the tries its own rule says. -/
def LosesOffer (k : CrewSlotNo) (tries : Nat) (c d : Call) : Prop :=
  d = { c with
    state := if c.offerees = [k] then .waiting else c.state, offerees := c.offerees.filter (· ≠ k), triesUsed := tries,
    timer := if c.offerees = [k] then stopped c else c.timer, history := allWithdrawn c.history [k] }

/-- The tries of a call whose offer at a rung was taken from it: one fewer on a SINGLE rung (R77, R90). -/
def triesGivenBack (r : Rung) (c : Call) : Nat :=
  match r.mode with
  | .single _ => c.triesUsed - 1
  | .all => c.triesUsed

/-- A call whose offer ended with its state seen: a call without offerees joins the dispatch list and shows it at its point. -/
def ShowsItsLoss (s t : State) (i : CallSlotNo) (k : CrewSlotNo) (c : Call) : Prop :=
  c.offerees = [k] → Joins s t i ∧ PointTold t c

/-- A call as the withdrawal of every offer leaves it when it is held (R12, R19); where the queue has room for a WITHDRAW to
each offeree, the history gains one WITHDRAWN entry for each, in their order, and the tries stay. -/
def HeldAs (s : State) (c d : Call) : Prop :=
  d = { c with
    state := .waiting, hold := some .command, offerees := [], timer := stopped c, history := d.history,
    triesUsed := d.triesUsed } ∧
  (s.queue.entries.length + c.offerees.length ≤ 24 → d.triesUsed = c.triesUsed ∧
    d.history = allWithdrawn c.history c.offerees)

/-- A crew that loses a number of calls (R44, R45), and perhaps its offer. -/
def LosesCalls (n : Nat) (a b : Crew) : Prop :=
  ∃ o, (o = a.offer ∨ o = none) ∧
    b = { a with load := a.load - n, idle := if n ≠ 0 ∧ a.load = n then 0 else a.idle, offer := o }

/-- A call as its hand-back by a crew leaves it (R40). -/
def HandedBackAs (k : CrewSlotNo) (c d : Call) : Prop :=
  d = { c with
    state := .waiting, holder := none, triesUsed := 0, attention := c.attention ||| 0x20, timer := stopped c,
    history := lastEight (c.history ++ [{ crew := k, outcome := .handedBack }]) }

/-- A crew as it goes OFF (R38–R40): its offer is withdrawn and its ACCEPTED calls are handed back; a call in none of these
keeps what KeepsCalls says. Where the Send Queue has room, the call that was offered to it goes on by its offeree set, and its
pager is told of the offer and of each call handed back. -/
def GoesOff (s t : State) (k : CrewSlotNo) (cr : Crew) (staged : Option Duty) : Prop :=
  (∃ n, n = (s.acceptedCalls k).length ∧ t.crew k = some { cr with
      duty := .off, staged := staged, offer := none, load := cr.load - n,
      idle := if n ≠ 0 ∧ cr.load = n then 0 else cr.idle }) ∧
    (∀ i c, s.call i = some c → c.holder = some k → c.state = .accepted → ∃ d, t.call i = some d ∧ HandedBackAs k c d ∧
      (c.hold = none → Joins s t i)) ∧
    (∀ i c, t.call i = some c → k ∉ c.offerees) ∧
    KeepsCalls s t (fun i => ∃ c, s.call i = some c ∧ c.holder = some k ∧ c.state = .accepted) ∧
    KeepsCrews s t (· = k) ∧
    (s.queue.entries.length + 2 * ((s.acceptedCalls k).length + 1) ≤ 24 →
      (∀ i c, cr.offer = some (s.tagOf i) → s.call i = some c → ∃ d, t.call i = some d ∧ LosesOffer k c.triesUsed c d ∧
        ShowsItsLoss s t i k c ∧ PagerTold s t i cr.badge c.cls .handover) ∧
      ∀ i c, s.call i = some c → c.holder = some k → c.state = .accepted →
        FormerHolderTold s t i cr.badge c.cls .handover ∧ PointTold t c)

/-! ## Eligibility and order -/

/-- A crew can be chosen for a call at a rung (R72). -/
def Eligible (s : State) (c : Call) (r : Rung) (k : CrewSlotNo) : Prop :=
  ∃ cr, s.crew k = some cr ∧ cr.duty = .on ∧ cr.trades.getLsbD (tradeIndex c.trade).val = true ∧ cr.grade = r.grade ∧
    cr.load < s.plan.loadLimit ∧
    (∀ e ∈ c.history, e.crew = k → e.outcome ≠ .declined ∧ e.outcome ≠ .lapsed ∧ e.outcome ≠ .loaded) ∧
    (∀ t, cr.offer = some t → ∃ v, t = s.tagOf t.slot ∧ s.call t.slot = some v ∧ classRank v.cls < classRank c.cls) ∧
    (r.reach ≠ .site → cr.sightAge ≤ s.plan.sightingWindow ∧
      ∃ z, cr.lastSeen = some z ∧ (z = c.zone ∨ (r.reach = .near ∧ z ∈ s.plan.zones[c.zone].neighbours)))

/-- The zone a crew is measured from: where it was last seen when it is reachable, and its home zone otherwise (R73). -/
def StandsIn (s : State) (cr : Crew) (z : Zone) : Prop :=
  (cr.lastSeen = some z ∧ cr.sightAge ≤ s.plan.sightingWindow) ∨
    (cr.home = z ∧ (cr.lastSeen = none ∨ s.plan.sightingWindow < cr.sightAge))

/-- 0 in the call's zone, 1 in a neighbour of it, 2 elsewhere (R73). -/
def Proximity (s : State) (zone : Zone) (cr : Crew) (n : Nat) : Prop :=
  ∃ z, StandsIn s cr z ∧
    ((z = zone ∧ n = 0) ∨ (z ≠ zone ∧ z ∈ s.plan.zones[zone].neighbours ∧ n = 1) ∨
      (z ≠ zone ∧ z ∉ s.plan.zones[zone].neighbours ∧ n = 2))

/-- A crew stands before another in candidate order (R73): without an offer first, then the nearer, then the smaller load, then
more idle minutes, then the lower slot. -/
def Precedes (s : State) (zone : Zone) (k l : CrewSlotNo) : Prop :=
  ∃ a b m n, s.crew k = some a ∧ s.crew l = some b ∧ Proximity s zone a m ∧ Proximity s zone b n ∧
    ((a.offer = none ∧ b.offer ≠ none) ∨
      (a.offer.isSome = b.offer.isSome ∧ (m < n ∨ (m = n ∧ (a.load < b.load ∨ (a.load = b.load ∧
        (b.idle < a.idle ∨ (a.idle = b.idle ∧ k < l))))))))

/-- The crews that a rung is offered to, from its candidates: the first one while a SINGLE rung has tries left, the first four
of an ALL rung that has not been offered, and none otherwise (R74). -/
def chosenFrom (s : State) (c : Call) (r : Rung) (tries : Nat) : List CrewSlotNo :=
  match r.mode with
  | .single n => if tries < n then (s.candidates c r).take 1 else []
  | .all => if tries = 0 then (s.candidates c r).take 4 else []

/-- The tries used at a rung of the ladder when a turn reaches it: those of the call at its own rung, and 0 above it
(R74). -/
def triesAt (c : Call) (n : Nat) : Nat := if n = c.rung then c.triesUsed else 0

/-- A turn reaches rung n of a ladder: every rung from the call's own up to it has chosen nobody (R74). -/
def TurnReaches (s : State) (c : Call) (l : Ladder) (n : Nat) : Prop :=
  c.rung ≤ n ∧ ∀ m r, c.rung ≤ m → m < n → l.rungs[m]? = some r → chosenFrom s c r (triesAt c m) = []

/-- The entry of a call's PAGE to a badge at a rung (R75, R94): whole, and as it joins, without an attempt. -/
def pageEntry (tag : Tag) (b : Badge) (c : Call) (n : Nat) (r : Rung) : Entry where
  content := .page
    { tag := tag, badge := b, trade := c.trade, cls := c.cls, zone := c.zone, origin := c.origin, rung := n
      mode := match r.mode with
        | .single _ => .single
        | .all => .all }
  band := c.cls
  attempts := 0
  dest := none
  inFlight := false

/-- An entry is the pending PAGE of a crew's outstanding offer. -/
def pagesOfferTo (s : State) (e : Entry) (k : CrewSlotNo) : Bool :=
  match s.crew k with
  | some cr => cr.offer.any (fun t => e.pendingPage t cr.badge)
  | none => false

/-- The end of a crew's outstanding offer queues a WITHDRAW (R12, R71): it has one, and not a pending PAGE for it with none in
flight. -/
def isWithdrawnFrom (s : State) (k : CrewSlotNo) : Bool :=
  match s.crew k with
  | some cr => cr.offer.any (fun t => s.queue.entries.all (fun e => !e.pendingPage t cr.badge) ||
      s.queue.entries.any (fun e => e.inFlight && e.isPage t cr.badge))
  | none => false

/-- The need of a turn that offers to these crews (R71): a PAGE to each, and a WITHDRAW for each offer taken that queues one. -/
def turnNeed (s : State) (chosen : List CrewSlotNo) : Nat := chosen.length + (chosen.filter (isWithdrawnFrom s)).length

/-- The room of a turn (R122): the free positions and the pending PAGEs that the turn removes itself, and for a STOP call every
other pending entry of the ROUTINE band. -/
def turnSpace (s : State) (cls : CallClass) (chosen : List CrewSlotNo) : Nat :=
  24 - s.queue.entries.length + (s.queue.entries.filter (fun e => chosen.any (pagesOfferTo s e) ||
    (cls == .stop && !e.inFlight && e.band == .routine))).length

/-- A turn passes over a call (R70, R122): it would offer it, and either it is ROUTINE while the queue is throttled or its need
is more than the room. -/
def PassedOver (s : State) (i : CallSlotNo) : Prop :=
  ∃ c l n r, s.call i = some c ∧ s.ladderOf c = some l ∧ l.rungs[n]? = some r ∧ TurnReaches s c l n ∧
    chosenFrom s c r (triesAt c n) ≠ [] ∧ ((c.cls = .routine ∧ s.queue.throttled = true) ∨
      turnSpace s c.cls (chosenFrom s c r (triesAt c n)) < turnNeed s (chosenFrom s c r (triesAt c n)))

/-! ## Plan items -/

/-- The item that contents belong to. -/
def itemOf : PlanContents → PlanItem
  | .zone z _ => .zone z
  | .point p _ => .point p
  | .ladder t c _ => .ladder t c
  | .loadLimit _ => .loadLimit
  | .sightingWindow _ => .sightingWindow
  | .thresholds _ _ => .thresholds
  | .attemptLimit _ => .attemptLimit
  | .lineSettings _ => .lineSettings

/-- A rung whose fields are in range (R55). -/
def LegalRung (r : Rung) : Prop :=
  (∀ n, r.mode = .single n → 1 ≤ n ∧ n ≤ 4) ∧ ∃ u, 1 ≤ u ∧ u ≤ 180 ∧ r.offerTime = 5 * u

/-- Contents whose fields are in range and whose form R53, R54 and R55 allow. -/
def LegalContents : PlanContents → Prop
  | .zone z e => e.neighbours.length ≤ 4 ∧ e.neighbours.Nodup ∧ z ∉ e.neighbours
  | .point _ e => e.zone = none → e.enabled = false
  | .ladder _ _ none => True
  | .ladder _ _ (some l) =>
    1 ≤ l.rungs.length ∧ l.rungs.length ≤ 6 ∧ (∀ r ∈ l.rungs, LegalRung r) ∧
      (∀ n, l.travel = some n → ∃ u, 1 ≤ u ∧ u ≤ 120 ∧ n = 30 * u) ∧ ∃ u, 1 ≤ u ∧ u ≤ 60 ∧ l.retry = 10 * u
  | .loadLimit n => 1 ≤ n ∧ n ≤ 3
  | .sightingWindow n => 15 ≤ n ∧ n ≤ 255
  | .thresholds lo hi => lo ≤ 22 ∧ hi ≤ 23
  | .attemptLimit n => 1 ≤ n ∧ n ≤ 4
  | .lineSettings _ => True

/-- The buffer holds these bytes from location 0x00; location 0x02 holds 0 where they end before it, as they do for an absent
ladder (12.7). -/
def BufferHolds (s : State) (bytes : List Byte) : Prop :=
  ∀ n : Fin 24, n.val < max 3 bytes.length → s.arg n = bytes.getD n.val 0

/-- The check of consistency that contents fail, as its code (R56, R57): 1 reclaim without a travel allowance, 2 rung order, 3
thresholds. -/
def FailsCheck : PlanContents → Byte → Prop
  | .ladder _ _ (some l), b =>
    (b = 1 ∧ l.reclaim = true ∧ l.travel = none) ∨
      (b = 2 ∧ (l.reclaim = false ∨ l.travel ≠ none) ∧ ∃ n x y, l.rungs[n]? = some x ∧ l.rungs[n + 1]? = some y ∧
        (gradeRank y.grade < gradeRank x.grade ∨ (y.grade = x.grade ∧ reachRank y.reach < reachRank x.reach)))
  | .thresholds lo hi, b => b = 3 ∧ ¬ (lo = 0 ∧ hi = 0) ∧ ¬ (1 ≤ lo ∧ lo ≤ 22 ∧ lo + 1 ≤ hi ∧ hi ≤ 23)
  | _, _ => False

/-- A call as a rewritten ladder clamps it (R64). -/
def ClampedTo (l : Ladder) (c d : Call) : Prop :=
  (l.rungs[c.rung]? = none → d = { c with rung := l.rungs.length - 1, triesUsed := 0 }) ∧
    ∀ r, l.rungs[c.rung]? = some r → d = { c with triesUsed := min c.triesUsed r.tries }

/-! ## Sending -/

/-- The address that a badge is sent to (R116): the beacon of the zone where its crew was last seen, when the crew is reachable,
the beacon is fitted and its flag is set; address 0 otherwise. -/
def RoutedTo (s : State) (b : Badge) (d : Addr) : Prop :=
  (∃ k cr z, s.enrolled b = some k ∧ s.crew k = some cr ∧ cr.lastSeen = some z ∧ cr.sightAge ≤ s.plan.sightingWindow ∧
    s.plan.zones[z].beacon = true ∧ s.line.answering[z] = true ∧ d = Zone.beacon z) ∨
  (d = 0 ∧ ∀ k cr z, s.enrolled b = some k → s.crew k = some cr → cr.lastSeen = some z →
    cr.sightAge ≤ s.plan.sightingWindow → s.plan.zones[z].beacon = true → s.line.answering[z] = false)

/-- The event of a failed attempt (R117, R132, R133): a bit fault while the TF6448 sends, or in the receipt window the want of
a good receipt or NO ROOM (log 23); whether the receipt was wanting, what the controller does then, and whether a send fault is
counted. -/
def FailsBy (s : State) (c : Instr) (noReceipt : Bool) (after : BusyWith) (fault : Bool) : Prop :=
  (Sends s ∧ ∃ m, c = .bitFault m ∧ noReceipt = false ∧ after = .waitingForIdle ∧ fault = true ∧
    ((m.kind = .overdriven ∧ m.inArbitrationField = false) ∨
      (m.kind = .underdriven ∧ s.line.settings.echo = .lineFault))) ∨
  (InReceiptWindow s ∧ after = .frameOver ∧ fault = false ∧
    ((c = .noReceipt ∧ noReceipt = true) ∨
      ∃ r, c = .receiptTaken r ∧ ((r.good = false ∧ noReceipt = true) ∨
        (r.good = true ∧ r.code = 0x21 ∧ noReceipt = false))))

/-- Two entries that are PAGEs of one pair of tag and badge, or LAMPs of one point (R112). -/
def Twins (e x : Entry) : Prop :=
  (∃ p q, e.content = .page p ∧ x.content = .page q ∧ q.tag = p.tag ∧ q.badge = p.badge) ∨
    ∃ p l m, e.content = .lamp p l ∧ x.content = .lamp p m

/-- A pending entry contradicts one whose attempt failed (R118): a WITHDRAW or another PAGE of its pair for a PAGE, a PAGE of
its pair for a WITHDRAW, another LAMP of its point for a LAMP. -/
def Supersedes (x e : Entry) : Prop :=
  x.inFlight = false ∧
    (Twins e x ∨
      (∃ p w, e.content = .page p ∧ x.content = .withdraw w ∧ w.tag = p.tag ∧ w.badge = p.badge) ∨
      ∃ w p, e.content = .withdraw w ∧ x.content = .page p ∧ p.tag = w.tag ∧ p.badge = w.badge)

/-- The Send Queue after its entry in flight has left flight without an attempt (R117, R120): the entry stands again at its
place. Where a twin of it is pending, R112 allows one of the two, and the twin coalesces with the landed entry as R113 says of an
entry offered beside a pending one: a PAGE is kept as it is, a LAMP takes the twin's states and band and moves only when the
band differs (the model's reading, log 34). -/
def LandsAs (s : State) (q : List Entry) (throttled queueHigh : Bool) : Prop :=
  ((∀ e ∈ s.queue.entries, e.inFlight = false) →
    q = s.queue.entries ∧ throttled = s.queue.throttled ∧ queueHigh = s.queue.queueHigh) ∧
  ∀ a e b, s.queue.entries = a ++ e :: b → e.inFlight = true → (∀ x ∈ a ++ b, x.inFlight = false) →
    ((∀ x ∈ a ++ b, ¬ Twins e x) →
      q = a ++ { e with inFlight := false } :: b ∧ throttled = s.queue.throttled ∧ queueHigh = s.queue.queueHigh) ∧
    ∀ x c d, a ++ b = c ++ x :: d → Twins e x → (∀ y ∈ c ++ d, ¬ Twins e y) →
      Compared s (a ++ b).length throttled queueHigh ∧
        ∀ a' b', s.queue.entries.filter (· ≠ x) = a' ++ e :: b' →
          (∀ g, e.content = .page g → q = a' ++ { e with inFlight := false } :: b') ∧
          ∀ p l, e.content = .lamp p l →
            q = if x.band = e.band then a' ++ { e with content := x.content, inFlight := false } :: b'
              else joinTail { e with content := x.content, band := x.band, inFlight := false } (a' ++ b')

/-! ## Which notice is taken -/

/-- A notice is pending while its source holds it (R171). -/
def Holds (s : State) : NoticeSource → Prop
  | .restart => s.port.restart = true
  | .lineStuck => s.line.lineStuck = true
  | .stopCall => ∃ i ∈ s.calls.attentionQueue, ∃ c, s.call i = some c ∧ c.cls = .stop
  | .lineEvent => s.line.lineEvent.latched = true
  | .tableFull => s.calls.tableFull.latched = true
  | .urgentCall => ∃ i ∈ s.calls.attentionQueue, ∃ c, s.call i = some c ∧ c.cls = .urgent
  | .unknownBadge => s.roster.unknownBadge.latched = true
  | .queueHigh => s.queue.queueHigh = true
  | .routineCall => ∃ i ∈ s.calls.attentionQueue, ∃ c, s.call i = some c ∧ c.cls = .routine
  | .shiftCutDone => s.roster.shiftCutDone.latched = true
  | .planAutoClosed => s.plan.autoClosed = true

/-- The bit of the notice mask that enables a notice: line 0, table full 1, unknown badge 2, queue high 3, STOP, URGENT and
ROUTINE calls 4 to 6, shift and plan 7; RESTART has none (R171, R182). -/
def Enabled (s : State) : NoticeSource → Prop
  | .restart => True
  | .lineStuck | .lineEvent => s.port.mask.getLsbD 0 = true
  | .tableFull => s.port.mask.getLsbD 1 = true
  | .unknownBadge => s.port.mask.getLsbD 2 = true
  | .queueHigh => s.port.mask.getLsbD 3 = true
  | .stopCall => s.port.mask.getLsbD 4 = true
  | .urgentCall => s.port.mask.getLsbD 5 = true
  | .routineCall => s.port.mask.getLsbD 6 = true
  | .shiftCutDone | .planAutoClosed => s.port.mask.getLsbD 7 = true

/-- The notices in the order of their priority (R171). -/
def noticeOrder : List NoticeSource :=
  [.restart, .lineStuck, .stopCall, .lineEvent, .tableFull, .urgentCall, .unknownBadge, .queueHigh, .routineCall,
   .shiftCutDone, .planAutoClosed]

/-- A notice is the pending one of highest priority whose group is enabled (R172). -/
def Chosen (s : State) (n : NoticeSource) : Prop :=
  ∃ higher lower, noticeOrder = higher ++ n :: lower ∧ Holds s n ∧ Enabled s n ∧ ∀ m ∈ higher, ¬ (Holds s m ∧ Enabled s m)

/-- The state after a read of 0x1B that presents a kind with its data (R172). -/
def presents (s : State) (kind first second third : Byte) : State :=
  { s with port := { s.port with dataLines := some kind, noticeData := { first := first, second := second, third := third } } }

/-! ## Which calls a search finds -/

/-- A call satisfies every argument of FIND CALLS (R26). -/
def Matches (s : State) (f : CallFilter) (c : Call) : Prop :=
  ((∀ n, 1 ≤ n → n ≤ 6 → f.states.getLsbD n = false) ∨ f.states.getLsbD (callStateCode c.state) = true) ∧
    (∀ t, f.trade = some t → c.trade = t) ∧ (∀ x, f.cls = some x → c.cls = x) ∧ (∀ o, f.origin = some o → c.origin = o) ∧
    ∀ b, f.badge = some b → ∃ k, s.enrolled b = some k ∧ c.holder = some k

end Sys2Proof.Machine
end

