-- ==== Sys2Proof/WellFormed.lean ====
section
/-! DEFINITION. Which terms of Instr are commands of the TF6448: body lengths, the frames that are reception errors, and the locations whose writes are ignored. -/

namespace Sys2Proof

/-- A frame carries 0–8 body bytes (R127). -/
def bodyOk (b : List Byte) : Bool := b.length ≤ 8

/-- A heard frame that is a reception error: a check of R135 discards or ignores it. -/
def HeardFrame.isReceptionError (h : HeardFrame) : Bool :=
  match h.verdict with
  | .handedOver _ => false
  | _ => true

/-- The locations that a write leaves alone without a flag: 0x19–0x1E (R166). -/
def ignoredLoc (l : BitVec 5) : Bool := 0x19 ≤ l.toNat && l.toNat ≤ 0x1E

/-- The well-formed commands. -/
def Instr.wf : Instr → Bool
  | .raise _ b => bodyOk b
  | .cancel _ b => bodyOk b
  | .pointHello _ _ b => bodyOk b
  | .key _ b => bodyOk b
  | .sight _ _ b => bodyOk b
  | .beaconHello _ _ b => bodyOk b
  | .receptionError h => h.isReceptionError
  | .ignoredWrite l _ => ignoredLoc l
  | .hostRaise | .readCall | .findCalls | .hold | .resume | .closeCall | .retire | .assign | .escalate | .repage
  | .enrol | .amend | .removeCrew | .readCrew | .setDuty | .stageDuty | .shiftCut | .shiftCutStep | .planWrite
  | .planRead | .planClose | .silenceHorn | .lineState | .unknownCommand | .bufferWrite _ _ | .statusRead | .noticeTake
  | .noticeMaskWrite _ | .powerOn _ | .resetLineAssertion | .warmRestart | .tick _ | .minute _ | .offerExpiry _
  | .travelExpiry _ | .retryExpiry _ | .autoClose | .dispatchTurn | .lineIdle | .frameSendStart | .arbitrationLoss _
  | .bitFault _ | .frameSent | .receiptTaken _ | .noReceipt | .receiptEchoMismatch | .lineHold | .lineHoldRepeat
  | .lineStuck | .lineClear | .dominantEdge | .commandTaken _ => true

end Sys2Proof
end

