-- ==== Sys2Proof/Certificates/Slice0/Obligations.lean ====
section
/-! DEFINITION. The statements for the provers: the queue of commands, the resets, the field frames, the host port, the commands of each block, the clocks, dispatch, the line, and the laws that every step keeps. -/

open Sys2Proof Sys2Proof.Machine

/-! ## The queue of commands -/

/-- A step takes the command at the front of the queue and runs it on the state with the rest of the queue. The queue is the model's own (log 1). -/
def Obligations.StepRunsFrontCommand : Prop :=
  ∀ (c : Instr) (rest : List Instr) (s : State), s.pending = c :: rest → step s = exec c { s with pending := rest }

/-- An empty queue idles (the model's choice, log 1), and every command answers a next state and leaves the queue alone. -/
def Obligations.StepIdlesOrRunsToANextState : Prop :=
  (∀ s : State, s.pending = [] → step s = .next s) ∧
    ∀ (c : Instr) (s : State), ∃ t, exec c s = .next t ∧ t.pending = s.pending

/-! ## Resets -/

/-- POWER_ON leaves every block at its power-on values at the end of the cold reset; while the detector holds the part, HORN and
INTL are released. The operand and what POWER_ON keeps are the model's choice (log 17), and so are the values that the records
show in the cold reset (log 31), the ticks and minutes on their way (log 5) and a stopped auto-close count without a number
(log 37). -/
def Obligations.PowerOnLeavesPowerOnValues : Prop :=
  (∀ s : State, ∃ t, exec (.powerOn .detectorHolds) s = .next t ∧ t.resetLine = .coldReset ∧ t.disp.horn = false ∧
    t.intlLow = false ∧ t.pending = s.pending) ∧
  ∀ (low : Bool) (s : State), ∃ t, exec (.powerOn (.ends low)) s = .next t ∧ t.pending = s.pending ∧
    (∀ i, t.slot i = { generation := 0, call := none }) ∧ t.calls.attentionQueue = [] ∧
    t.calls.tableFull = { latched := false, origin := none, count := 0 } ∧
    (∀ k, t.crew k = none) ∧ t.roster.unknownBadge = { latched := false, badge := none, overrun := false } ∧
    t.roster.walk = { progress := .idle, switched := 0, withdrawn := 0, handedBack := 0 } ∧
    t.roster.shiftCutDone.latched = false ∧
    t.plan.phase = .openCold ∧ t.plan.firstClose = false ∧ t.plan.autoClose = none ∧ t.plan.autoClosed = false ∧
    (∀ z : Zone, t.plan.zones[z] = { beacon := false, neighbours := [] }) ∧
    (∀ p : Point, t.plan.points[p] = { zone := none, enabled := false }) ∧ (∀ tr c, t.ladder tr c = none) ∧
    t.plan.loadLimit = 2 ∧ t.plan.sightingWindow = 90 ∧ t.plan.thresholdLow = 0 ∧ t.plan.thresholdHigh = 0 ∧
    t.plan.attemptLimit = 3 ∧ t.plan.lineSettings = { rate := .kbit12_5, echo := .lineFault } ∧
    t.disp = { list := [], horn := false, silenced := false } ∧ t.clock.oneSecondPhase = 0 ∧ t.clock.minuteCount = 0 ∧
    t.clock.tickDue = TickDue.none ∧ t.clock.minuteDue = MinuteDue.none ∧
    t.queue = { entries := [], throttled := false, queueHigh := false } ∧
    t.line.state = .silent ∧ t.line.receiveErrors = 0 ∧ t.line.sendFaults = 0 ∧ (∀ z : Zone, t.line.answering[z] = true) ∧
    t.line.lineEvent.latched = false ∧ t.line.lineStuck = false ∧ (∀ p : Point, t.lampStale[p] = false) ∧
    t.port.busy = false ∧ (∀ n : Fin 24, t.port.buffer[n] = 0) ∧ t.port.code = 0 ∧ t.port.result = .none ∧
    t.port.overrun = false ∧ t.port.mask = 0xFF ∧ t.port.restart = true ∧ t.port.resetCause = .cold ∧
    t.port.noticeData = { first := 0, second := 0, third := 0 } ∧
    t.resetLine = (if low then .lowSincePowerOn else .released)

/-- State.reset is the part right after POWER_ON with the reset line released, and it meets every law below. -/
def Obligations.ResetStateIsPowerOnAndLawful : Prop :=
  exec (.powerOn (.ends false)) State.reset = .next State.reset ∧ State.reset.pending = [] ∧
    QueueOk State.reset ∧ LineOk State.reset ∧ PairsOk State.reset ∧ AttentionOk State.reset ∧ DispatchOk State.reset ∧ BadgesOk State.reset ∧
    RangesOk State.reset ∧ BindingOk State.reset ∧ HornOk State.reset

/-- The assertion of the reset line halts the line and the clock and releases HORN and INTL, and leaves every record; while the
line is low nothing is taken but the two reads, which present 0, and every location reads 0. In the cold reset no command but
POWER_ON is taken. What is done at the assertion and what at the release, and that a low line stops every event, are the
model's reading (logs 15 and 32); that the ticks and minutes on their way stand through the assertion (log 5), and what a read
finds in the cold reset (log 31), are its choice. -/
def Obligations.ResetLineLowHaltsThePart : Prop :=
  (∀ s : State, s.resetLine = .released → ∃ t, exec .resetLineAssertion s = .next t ∧ t.resetLine = .low ∧
    t.line.state = .silent ∧ t.line.settings = s.line.settings ∧ t.line.receiveErrors = 0 ∧ t.line.sendFaults = 0 ∧
    (∀ z : Zone, t.line.answering[z] = true) ∧ t.line.lineEvent.latched = false ∧ t.line.lineStuck = false ∧
    t.clock = { s.clock with oneSecondPhase := 0 } ∧ t.disp.horn = false ∧
    t.disp.list = s.disp.list ∧ t.disp.silenced = s.disp.silenced ∧ t.calls = s.calls ∧ t.roster = s.roster ∧
    t.plan = s.plan ∧ t.queue = s.queue ∧ t.lampStale = s.lampStale ∧ t.port = s.port) ∧
  (∀ (c : Instr) (s : State), s.resetLine ≠ .released → (∀ phase, c ≠ .powerOn phase) → c ≠ .warmRestart →
    c ≠ .statusRead → c ≠ .noticeTake → exec c s = .next s) ∧
  (∀ (c : Instr) (s : State), s.resetLine = .coldReset → (∀ phase, c ≠ .powerOn phase) → exec c s = .next s) ∧
  ∀ s : State, s.resetLine ≠ .released →
    (s.resetLine ≠ .coldReset →
      exec .statusRead s = .next { s with port := { s.port with dataLines := some 0 } } ∧
      exec .noticeTake s = .next { s with port := { s.port with dataLines := some 0 } }) ∧
    (∀ loc, windowRead s loc = 0) ∧ s.intlLow = false

/-- The warm restart at the calls: live calls are held, offers dropped and their tries given back. That it is done at the release is the model's reading (log 15). -/
def Obligations.WarmRestartHoldsLiveCalls : Prop :=
  ∀ s : State, s.resetLine = .low → ∃ t, exec .warmRestart s = .next t ∧
    t.calls.attentionQueue = s.calls.attentionQueue ∧ t.calls.tableFull.latched = false ∧ t.calls.tableFull.count = 0 ∧
    t.disp.list = [] ∧ ∀ i, (t.slot i).generation = (s.slot i).generation ∧ (s.call i = none → t.call i = none) ∧
      ∀ c, s.call i = some c →
        (c.state = .closed → t.call i = some c) ∧
        (c.state ≠ .closed → c.state ≠ .offered → t.call i = some { c with
          hold := some (c.hold.getD .restart), timer := { c.timer with expiryPending := false } }) ∧
        (c.state = .offered → ∀ r, s.rungOf c = some r → t.call i = some { c with
          state := .waiting, offerees := [], hold := some (c.hold.getD .restart),
          timer := { mode := .none, count := c.timer.count, expiryPending := false },
          triesUsed := (match r.mode with
            | .single _ => c.triesUsed - 1
            | .all => 0) })

/-- The warm restart at the other blocks, and the release of a line that has been low since power-on, which leaves the
power-on values. What is done at the release is the model's reading (log 15), and so is what becomes of the ticks and minutes on
their way (log 5), and a stopped auto-close count holds no number (log 37). -/
def Obligations.WarmRestartAtTheOtherBlocks : Prop :=
  (∀ s : State, s.resetLine = .low → ∃ t, exec .warmRestart s = .next t ∧
    (∀ k, t.crew k = (s.crew k).map (fun c => { c with offer := none })) ∧ t.roster.unknownBadge.latched = false ∧
    t.roster.unknownBadge.overrun = false ∧
    t.roster.walk = { progress := .idle, switched := 0, withdrawn := 0, handedBack := 0 } ∧
    t.roster.shiftCutDone.latched = false ∧ SameContents t.plan s.plan ∧ t.plan.firstClose = s.plan.firstClose ∧
    t.plan.autoClosed = false ∧ (s.plan.firstClose = true → t.plan.phase = .openWarm ∧ t.plan.autoClose = some 60) ∧
    (s.plan.firstClose = false → t.plan.phase = .openCold ∧ t.plan.autoClose = none) ∧
    t.disp = { list := [], horn := false, silenced := false } ∧
    t.clock = { s.clock with oneSecondPhase := 0, tickDue := TickDue.none } ∧
    t.queue = { entries := [], throttled := false, queueHigh := false } ∧
    t.line.state = (if s.plan.firstClose then .busy .waitingForIdle else .silent) ∧ t.line.settings = s.line.settings ∧
    t.line.receiveErrors = 0 ∧ t.line.sendFaults = 0 ∧ (∀ z : Zone, t.line.answering[z] = true) ∧
    t.line.lineEvent.latched = false ∧ t.line.lineStuck = false ∧ t.lampStale = s.lampStale ∧ t.port.busy = false ∧
    (∀ n : Fin 24, t.port.buffer[n] = 0) ∧ t.port.code = 0 ∧ t.port.result = .none ∧ t.port.overrun = false ∧
    t.port.mask = 0xFF ∧ t.port.restart = true ∧ t.port.resetCause = .warm ∧
    t.port.noticeData = { first := 0, second := 0, third := 0 } ∧ t.resetLine = .released) ∧
  ∀ s : State, s.resetLine = .lowSincePowerOn → exec .warmRestart s = .next { s with resetLine := .released }

/-! ## Frames from call points -/

/-- The refusals of a RAISE in order: an open plan, a disabled point, an absent ladder, a full table; a refused raise changes
no call. A frame may also come on an idle line (log 4). -/
def Obligations.RefusedRaisesChangeNoCall : Prop :=
  ∀ (s : State) (p : Point) (tr : Trade) (cl : CallClass), HearsFrames s → s.lampStale[p] = false →
    (s.plan.phase ≠ .closed → exec (.raise p (raiseBody tr cl)) s = .next (s.setLineState (drives [0x01]))) ∧
    (s.plan.phase = .closed → s.plan.points[p].enabled = false →
      exec (.raise p (raiseBody tr cl)) s = .next (s.setLineState (drives [0x02]))) ∧
    ∀ z, s.plan.phase = .closed → s.plan.points[p] = { zone := some z, enabled := true } →
      (s.ladder tr cl = none → exec (.raise p (raiseBody tr cl)) s = .next (s.setLineState (drives [0x03]))) ∧
      (s.ladder tr cl ≠ none → NoLiveCall s (.point p) tr →
        TableIsFull s →
        exec (.raise p (raiseBody tr cl)) s = .next ({ s with calls := { s.calls with
          tableFull := { latched := true, origin := some (.point p), count := min 255 (s.calls.tableFull.count + 1) } }
            }.setLineState (drives [0x04])))

/-- A raise of the same or a lower class merges: the raise count goes up by one, at 15 it stays, and nothing else changes. A frame may also come on an idle line (log 4). -/
def Obligations.RaiseMergesIntoTheLiveCall : Prop :=
  ∀ (s : State) (p : Point) (tr : Trade) (cl : CallClass) (i : CallSlotNo) (c : Call) (z : Zone),
    HearsFrames s → s.lampStale[p] = false → s.plan.phase = .closed →
    s.plan.points[p] = { zone := some z, enabled := true } → s.ladder tr cl ≠ none → IsLiveCall s (.point p) tr i c →
    classRank cl ≤ classRank c.cls →
    exec (.raise p (raiseBody tr cl)) s = .next ((s.setSlot i { s.slot i with
      call := some { c with raiseCount := min 15 (c.raiseCount + 1) } }).setLineState (drives [0x82, (s.tagOf i).byte]))

/-- A raise that makes a new call takes the lowest FREE slot, or reclaims the lowest reported CLOSED one; the call joins at the
tail of its band, and its point is sent its lamps. A frame may also come on an idle line (log 4). -/
def Obligations.RaiseMakesANewCall : Prop :=
  ∀ (s : State) (p : Point) (tr : Trade) (cl : CallClass) (i : CallSlotNo) (z : Zone),
    HearsFrames s → s.plan.phase = .closed → s.plan.points[p] = { zone := some z, enabled := true } →
    s.ladder tr cl ≠ none → NoLiveCall s (.point p) tr →
    TakesSlot s i →
    ∃ t, exec (.raise p (raiseBody tr cl)) s = .next t ∧ MadeAs s t i (raisedCall (.point p) z tr cl) ∧
      (s.queue.entries.length < 24 → LampQueued t p ∧ t.lampStale[p] = false) ∧
      t.line.state = drives [0x81, (t.tagOf i).byte] ∧ t.port = s.port ∧ KeepsRest s t ∧
      KeepsCalls s t (· = i) ∧ KeepsCrews s t (fun _ => False)

/-- A raise of a higher class upgrades the live call, by the state in which it finds it. The WITHDRAWs of an upgrade carry the
new class (the model's reading, log 12). A frame may also come on an idle line (log 4). -/
def Obligations.RaiseOfHigherClassUpgrades : Prop :=
  ∀ (s : State) (p : Point) (tr : Trade) (cl : CallClass) (i : CallSlotNo) (c : Call) (z : Zone) (l : Ladder),
    BindingOk s → DispatchOk s → HearsFrames s → s.plan.phase = .closed →
    s.plan.points[p] = { zone := some z, enabled := true } → s.ladder tr cl = some l → IsLiveCall s (.point p) tr i c → classRank c.cls < classRank cl →
    ∃ t d, exec (.raise p (raiseBody tr cl)) s = .next t ∧ t.call i = some d ∧ UpgradedAs s t i l cl c d ∧
      (RoomFor s c 2 → t.lampStale[p] = false) ∧ t.line.state = drives [0x82, (s.tagOf i).byte] ∧
      t.port = s.port ∧ KeepsRest s t ∧ KeepsCalls s t (· = i) ∧ KeepsCrews s t (fun _ => False)

/-- A CANCEL closes the live calls of its point that it names, tells their pagers, and is answered with their number. That a
holder's WITHDRAW is queued even behind its pending PAGE is the model's reading (log 11). A frame may also come on an idle line
(log 4). -/
def Obligations.CancelClosesTheNamedCalls : Prop :=
  ∀ (s : State) (p : Point) (named : Option Trade), BindingOk s → HearsFrames s →
    ∃ (t : State) (slots : List CallSlotNo), exec (.cancel p [match named with
        | some tr => byteOf (tradeIndex tr).val
        | none => 0xFF]) s = .next t ∧
      slots.Nodup ∧
      (∀ i, i ∈ slots ↔ ∃ c, s.call i = some c ∧ c.state ≠ .closed ∧ c.origin = .point p ∧
        (named = none ∨ named = some c.trade)) ∧
      (∀ i ∈ slots, ∀ c, s.call i = some c → (∃ d, t.call i = some d ∧ ClosedAs .cancelled c d) ∧ i ∉ t.disp.list) ∧
      (s.queue.entries.length + (slots.map (fun i => (s.offereesOf i).length + 1)).sum + 1 ≤ 24 →
        (∀ i ∈ slots, ∀ c d, s.call i = some c → t.call i = some d → CloseTold s t i c d) ∧
        (slots ≠ [] → t.lampStale[p] = false)) ∧
      t.line.state = drives [0x83, byteOf slots.length] ∧ t.port = s.port ∧ KeepsRest s t ∧
      KeepsCalls s t (· ∈ slots) ∧ KeepsCrews s t (fun k => ∃ i ∈ slots, ∃ c, s.call i = some c ∧ c.holder = some k)

/-- The lamps of a point show the states of its live calls, and their band is the highest class among these. A POINT HELLO to the
head station clears the lamp-stale flag and makes a lamp update. Any other frame of a point whose flag is set does what it does
with the flag clear, and makes one lamp update besides, unless what it does makes one already. A HELLO to address 0 does
nothing; that it leaves the lamp-stale flag too is the model's reading (log 14). A frame may also come on an idle line
(log 4). Whatever command changes a live call of a point, or makes or closes one, the point's LAMP is pending after it with the
states and the class of its live calls, unless the queue was full and has made the point lamp-stale; the resets make no lamp
update. -/
def Obligations.LampUpdatesShowTheLiveCalls : Prop :=
  (∀ (s : State) (p : Point) (tr : Trade),
    (NoLiveCall s (.point p) tr → s.lampFor p tr = .dark) ∧
    ∀ i c, IsLiveCall s (.point p) tr i c →
      s.lampFor p tr = (match c.state with
        | .waiting => .waiting
        | .offered => .paging
        | .accepted => .coming
        | .attending => .onSite
        | .unclaimed => .noCrew
        | .closed => .dark)) ∧
  (∀ (s : State) (p : Point), s.lampStates p =
      { electrical := s.lampFor p .electrical, mechanical := s.lampFor p .mechanical,
        hydraulic := s.lampFor p .hydraulic, crane := s.lampFor p .crane } ∧
    (∀ i c, s.call i = some c → c.state ≠ .closed → c.origin = .point p → classRank c.cls ≤ classRank (s.lampBand p)) ∧
    (s.lampBand p = .routine ∨
      ∃ i c, s.call i = some c ∧ c.state ≠ .closed ∧ c.origin = .point p ∧ c.cls = s.lampBand p)) ∧
  (∀ (s : State) (p : Point) (body : List Byte), HearsFrames s →
    exec (.pointHello p .allBeacons body) s = .next (s.setLineState (.busy .frameOver)) ∧
    ∃ t, exec (.pointHello p .head body) s = .next (t.setLineState (.busy .frameOver)) ∧
      LampUpdated (s.setLampStale p false) t p) ∧
  (∀ (s : State) (p : Point) (body : List Byte) (c : Instr), HearsFrames s → s.lampStale[p] = true →
    (c = .raise p body ∨ c = .cancel p body) →
    ∃ u t, exec c (s.setLampStale p false) = .next u ∧ exec c s = .next t ∧
      ((∃ i gen st cl, ¬ (LampShows s p i gen st cl ↔ LampShows u p i gen st cl)) → t = u) ∧
      ((∀ i gen st cl, LampShows s p i gen st cl ↔ LampShows u p i gen st cl) → LampUpdated u t p)) ∧
  ∀ (c : Instr) (s t : State) (p : Point), BindingOk s → (∀ phase, c ≠ .powerOn phase) → c ≠ .warmRestart →
    exec c s = .next t → (∃ i gen st cl, ¬ (LampShows s p i gen st cl ↔ LampShows t p i gen st cl)) →
    LampQueued t p ∨ (t.lampStale[p] = true ∧ (24 ≤ t.queue.entries.length ∨ InReceiptWindow s))

/-- A RAISE, CANCEL or KEY with a body error is answered BAD BODY and reaches no block. A frame may also come on an idle line (log 4). -/
def Obligations.BodyErrorsAreAnsweredBadBody : Prop :=
  ∀ (s : State) (body : List Byte), HearsFrames s →
    (∀ p : Point, s.lampStale[p] = false → (∀ tr cl, body ≠ raiseBody tr cl) →
      exec (.raise p body) s = .next (s.setLineState (drives [0x1F]))) ∧
    (∀ p : Point, s.lampStale[p] = false → body ≠ [0xFF] → (∀ tr : Trade, body ≠ [byteOf (tradeIndex tr).val]) →
      exec (.cancel p body) s = .next (s.setLineState (drives [0x1F]))) ∧
    ∀ z : Zone, (∀ tag b (n : Nat), b ≠ 0 → b ≠ 0xFFFF → 1 ≤ n → n ≤ 4 → body ≠ keyBody tag b (byteOf n)) →
      exec (.key z body) s = .next ((s.setAnswering z true).setLineState (drives [0x1F]))

/-! ## Frames from beacons -/

/-- A SIGHT records each badge of its body in order: an enrolled one is seen in the beacon's zone, an unenrolled one updates
the unknown-badge latch, and 0 and 65535 are passed over. That an unenrolled badge named again in the body does not set overrun
is the model's reading (log 41). A frame may also come on an idle line (log 4). -/
def Obligations.SightRecordsEachBadge : Prop :=
  (∀ (s : State) (z : Zone) (bs : List Badge), HearsFrames s → 1 ≤ bs.length → bs.length ≤ 3 →
    exec (.sight z .head (bs.flatMap (fun b => [hiByte b, loByte b]))) s =
      .next (((firstNamings bs).foldl (State.sightBadge z) (s.setAnswering z true)).setLineState (.busy .frameOver))) ∧
  (∀ (s : State) (z : Zone) (d : Destination) (body : List Byte), HearsFrames s →
    (d = .allBeacons ∨ (body.length ≠ 2 ∧ body.length ≠ 4 ∧ body.length ≠ 6)) →
    exec (.sight z d body) s = .next ((s.setAnswering z true).setLineState (.busy .frameOver))) ∧
  ∀ (s : State) (z : Zone) (b : Badge),
    (∀ k, s.enrolled b = some k →
      State.sightBadge z s b = s.modCrew k (fun c => { c with lastSeen := some z, sightAge := 0 })) ∧
    (s.enrolled b = none → b ≠ 0 → b ≠ 0xFFFF → State.sightBadge z s b = { s with roster := { s.roster with
      unknownBadge := { latched := true, badge := some b,
                        overrun := s.roster.unknownBadge.latched || s.roster.unknownBadge.overrun } } }) ∧
    (s.enrolled b = none → b = 0 ∨ b = 0xFFFF → State.sightBadge z s b = s)

/-- A BEACON HELLO sets its zone's beacon-answering flag, and no record is changed. A frame may also come on an idle line (log 4). -/
def Obligations.BeaconHelloChangesNoRecord : Prop :=
  ∀ (s : State) (z : Zone) (d : Destination) (body : List Byte), HearsFrames s →
    exec (.beaconHello z d body) s = .next ((s.setAnswering z true).setLineState (.busy .frameOver))

/-- Keys that change no call: the sighting stands, and the receipt says why. A frame may also come on an idle line (log 4). -/
def Obligations.KeysThatChangeNoCall : Prop :=
  ∀ (s : State) (z : Zone) (tag : Tag) (b : Badge), HearsFrames s → b ≠ 0 → b ≠ 0xFFFF →
    (s.enrolled b = none → ∀ n : Nat, 1 ≤ n → n ≤ 4 → exec (.key z (keyBody tag b (byteOf n))) s =
      .next (({ s with roster := { s.roster with
        unknownBadge := { latched := true, badge := some b,
                          overrun := s.roster.unknownBadge.latched || s.roster.unknownBadge.overrun } } }.setAnswering
            z true).setLineState (drives [0x16]))) ∧
    ∀ k, s.enrolled b = some k →
      ((tag ≠ s.tagOf tag.slot ∨ s.call tag.slot = none) → ∀ n : Nat, 1 ≤ n → n ≤ 4 →
        exec (.key z (keyBody tag b (byteOf n))) s = .next ((sighted s z k).setLineState (drives [0x17]))) ∧
      ∀ c, tag = s.tagOf tag.slot → s.call tag.slot = some c →
        (c.holder = some k → exec (.key z (keyBody tag b 1)) s = .next ((sighted s z k).setLineState (drives [0x10]))) ∧
        (c.holder ≠ some k → k ∉ c.offerees → (c.state = .accepted ∨ c.state = .attending) →
          exec (.key z (keyBody tag b 1)) s = .next ((sighted s z k).setLineState (drives [0x12]))) ∧
        (c.holder ≠ some k → k ∉ c.offerees → c.state ≠ .accepted → c.state ≠ .attending →
          exec (.key z (keyBody tag b 1)) s = .next ((sighted s z k).setLineState (drives [0x13]))) ∧
        (k ∉ c.offerees → exec (.key z (keyBody tag b 2)) s = .next ((sighted s z k).setLineState (drives [0x13]))) ∧
        (c.holder = some k → c.state ≠ .accepted →
          exec (.key z (keyBody tag b 3)) s = .next ((sighted s z k).setLineState (drives [0x14]))) ∧
        (c.holder ≠ some k → exec (.key z (keyBody tag b 3)) s = .next ((sighted s z k).setLineState (drives [0x15]))) ∧
        (c.holder ≠ some k → exec (.key z (keyBody tag b 4)) s = .next ((sighted s z k).setLineState (drives [0x15])))

/-- An ACCEPT of an offeree whose load is below the limit makes it the holder and withdraws every other offer, whose pagers are
told. A frame may also come on an idle line (log 4). -/
def Obligations.AcceptBelowTheLoadLimitIsGranted : Prop :=
  ∀ (s : State) (z : Zone) (i : CallSlotNo) (b : Badge) (k : CrewSlotNo) (c : Call) (cr : Crew),
    BindingOk s → BadgesOk s → HearsFrames s → s.enrolled b = some k → s.crew k = some cr → s.call i = some c →
    k ∈ c.offerees → cr.load < s.plan.loadLimit →
    ∃ t d, exec (.key z (keyBody (s.tagOf i) b 1)) s = .next t ∧ t.call i = some d ∧
      d = { c with
        state := .accepted, holder := some k, offerees := [], attention := c.attention ||| 0x02,
        timer := travelLoaded s c, history := d.history, triesUsed := d.triesUsed } ∧
      (c.offerees = [k] → d.history = c.history ∧ d.triesUsed = c.triesUsed) ∧
      (RoomFor s c 2 → d.history = allWithdrawn c.history (c.offerees.filter (· ≠ k)) ∧ d.triesUsed = c.triesUsed ∧
        PointTold t d ∧ OffereesTold s t i c c.cls .taken (· = k)) ∧
      t.crew k = some { cr with load := cr.load + 1, offer := none, lastSeen := some z, sightAge := 0 } ∧
      (∀ l ∈ c.offerees, l ≠ k → ∀ e, t.crew l = some e → e.offer = none) ∧ i ∉ t.disp.list ∧
      (∀ e ∈ t.queue.entries, e.pendingPage (s.tagOf i) b = false) ∧
      t.line = { s.line with state := drives [0x10], answering := s.line.answering.set z true } ∧ t.port = s.port ∧
      KeepsRest s t ∧ KeepsCalls s t (· = i) ∧ KeepsCrews s t (· = k)

/-- A DECLINE of an offeree, and an ACCEPT at the load limit, end that offer with an entry that excludes the crew. A frame may also come on an idle line (log 4). -/
def Obligations.DeclineAndLoadedAcceptEndTheOffer : Prop :=
  ∀ (s : State) (z : Zone) (i : CallSlotNo) (b : Badge) (k : CrewSlotNo) (c : Call) (cr : Crew) (key receipt : Byte)
    (outcome : OfferOutcome),
    BindingOk s → BadgesOk s → HearsFrames s → s.enrolled b = some k → s.crew k = some cr → s.call i = some c →
    k ∈ c.offerees →
    ((key = 2 ∧ receipt = 0x14 ∧ outcome = .declined) ∨
      (key = 1 ∧ receipt = 0x11 ∧ outcome = .loaded ∧ s.plan.loadLimit ≤ cr.load)) →
    ∃ t d, exec (.key z (keyBody (s.tagOf i) b key)) s = .next t ∧ t.call i = some d ∧
      (c.offerees = [k] → Joins s t i ∧ d = { c with
        state := .waiting, offerees := [], timer := stopped c,
        history := lastEight (c.history ++ [{ crew := k, outcome := outcome }]) }) ∧
      (c.offerees ≠ [k] → d = { c with
        offerees := c.offerees.filter (· ≠ k), history := lastEight (c.history ++ [{ crew := k, outcome := outcome }]) }) ∧
      t.crew k = some { cr with offer := none, lastSeen := some z, sightAge := 0 } ∧
      (∀ e ∈ t.queue.entries, e.pendingPage (s.tagOf i) b = false) ∧ OnlyLampsJoin s t ∧
      t.line = { s.line with state := drives [receipt], answering := s.line.answering.set z true } ∧ t.port = s.port ∧
      KeepsRest s t ∧ KeepsCalls s t (· = i) ∧ KeepsCrews s t (· = k)

/-- ON SITE from the holder of an ACCEPTED call makes it ATTENDING; CLEAR from the holder closes it. A frame may also come on an idle line (log 4). -/
def Obligations.OnSiteAndClearFromTheHolder : Prop :=
  ∀ (s : State) (z : Zone) (i : CallSlotNo) (b : Badge) (k : CrewSlotNo) (c : Call) (cr : Crew),
    BindingOk s → HearsFrames s → b ≠ 0 → b ≠ 0xFFFF → s.enrolled b = some k → s.crew k = some cr → s.call i = some c →
    c.holder = some k →
    (c.state = .accepted → ∃ t, exec (.key z (keyBody (s.tagOf i) b 3)) s = .next t ∧
      t.call i = some { c with state := .attending, timer := stopped c, attention := c.attention ||| 0x04 } ∧
      (∃ o, (o = cr.offer ∨ o = none) ∧
        t.crew k = some { cr with offer := o, lastSeen := some z, sightAge := 0 }) ∧
      OnlyLampsJoin s t ∧
      t.line = { s.line with state := drives [0x14], answering := s.line.answering.set z true } ∧ t.port = s.port ∧
      KeepsRest s t ∧ KeepsCalls s t (· = i) ∧ KeepsCrews s t (· = k)) ∧
    ∃ t d, exec (.key z (keyBody (s.tagOf i) b 4)) s = .next t ∧ t.call i = some d ∧ ClosedAs .cleared c d ∧
      (∃ o, (o = cr.offer ∨ o = none) ∧ t.crew k = some { cr with
        load := cr.load - 1, idle := if cr.load = 1 then 0 else cr.idle, offer := o, lastSeen := some z, sightAge := 0 }) ∧
      OnlyLampsJoin s t ∧ i ∉ t.disp.list ∧
      t.line = { s.line with state := drives [0x14], answering := s.line.answering.set z true } ∧ t.port = s.port ∧
      KeepsRest s t ∧ KeepsCalls s t (· = i) ∧ KeepsCrews s t (· = k)

/-! ## The line checks and the frames -/

/-- The ordered checks of a frame of another node: which are counted, which wait for idle, and which set the beacon-answering
flag. A frame may also come on an idle line (log 4). -/
def Obligations.ReceptionErrorsAreCountedInOrder : Prop :=
  ∀ (s : State) (h : HeardFrame), HearsFrames s →
    (8 < h.frame.length.toNat ∨ h.framingError = true ∨ h.frame.body.length ≠ h.frame.length.toNat →
      exec (.receptionError h) s = .next { s with line := { s.line with
        receiveErrors := min 255 (s.line.receiveErrors + 1), state := .busy .waitingForIdle } }) ∧
    (h.frame.length.toNat ≤ 8 → h.framingError = false → h.frame.body.length = h.frame.length.toNat →
      (h.frame.check ≠ crc h.frame.bits → exec (.receptionError h) s = .next { s with line := { s.line with
        receiveErrors := min 255 (s.line.receiveErrors + 1), state := .busy .frameOver } }) ∧
      (h.frame.check = crc h.frame.bits → ∃ flags : Vector Bool 16,
        (∀ z : Zone, flags[z] = if h.frame.source.toNat = 112 + z.val then true else s.line.answering[z]) ∧
        (h.frame.dest ≠ 1 → h.frame.dest ≠ 0 → exec (.receptionError h) s = .next { s with line := { s.line with
          answering := flags, state := .busy .frameOver } }) ∧
        (h.frame.dest = 1 ∨ h.frame.dest = 0 →
          (h.frame.classCode = 3 ∨ FrameKind.ofCode h.frame.kindCode = none ∨
            (h.frame.receiptWanted = true ∧ h.frame.dest = 0) ∨
            (∃ k, FrameKind.ofCode h.frame.kindCode = some k ∧
              (k.fieldReceipt ≠ some h.frame.receiptWanted ∨ k.sourceInRange h.frame.source = false))) →
          exec (.receptionError h) s = .next { s with line := { s.line with
            answering := flags, receiveErrors := min 255 (s.line.receiveErrors + 1), state := .busy .frameOver } })))

/-- The frame that carries a field command is handed over as that command, with its source, destination and body. -/
def Obligations.FieldFramesAreReadAsTheirCommands : Prop :=
  ∀ (cls : CallClass) (i : Instr) (f : Frame), i.wf = true → Instr.fieldFrame cls i = some f →
    (∀ h, i ≠ .receptionError h) → HeardFrame.command { frame := f, framingError := false } = i

/-- The check register starts at all ones; each bit shifts it, and adds 0xD5 exactly when the bit shifted out differs from the
frame's. A receiver that runs it over a frame and its check byte finds the register at zero. -/
def Obligations.CheckByteBringsTheRegisterToZero : Prop :=
  crc [] = 0xFF ∧
  (∀ (bits : List Bool) (b : Bool), crc (bits ++ [b]) =
    if (crc bits).getLsbD 7 = b then crc bits <<< 1 else (crc bits <<< 1) ^^^ 0xD5) ∧
  ∀ bits : List Bool, crc (bits ++ bitsOf (crc bits)) = 0

/-! ## The host port -/

/-- Writes of the buffer and of the command location are stored and taken in READY, and ignored with COMMAND OVERRUN in BUSY;
the mask is written in either port state; a write to an ignored location changes nothing; a code that names no command
completes with UNKNOWN COMMAND and an empty answer. -/
def Obligations.PortWritesByPortState : Prop :=
  (∀ (s : State) (loc : BufferLoc) (v : Byte), s.resetLine = .released →
    (s.port.busy = false →
      exec (.bufferWrite loc v) s = .next { s with port := { s.port with buffer := s.port.buffer.set loc v } } ∧
      exec (.commandTaken v) s = .next { s with port := { s.port with busy := true, code := v } }) ∧
    (s.port.busy = true →
      exec (.bufferWrite loc v) s = .next { s with port := { s.port with overrun := true } } ∧
      exec (.commandTaken v) s = .next { s with port := { s.port with overrun := true } })) ∧
  (∀ (s : State) (v : Byte), s.resetLine = .released →
    exec (.noticeMaskWrite v) s = .next { s with port := { s.port with mask := v } }) ∧
  (∀ (s : State) (loc : BitVec 5) (v : Byte), exec (.ignoredWrite loc v) s = .next s) ∧
  ∀ s : State, s.resetLine = .released → s.port.busy = true → s.roster.walk.progress = .idle →
    (s.port.code = 0 ∨ 0x16 < s.port.code.toNat) →
    exec .unknownCommand s = .next { s with port := { s.port with
      busy := false, result := .unknownCommand, buffer := Vector.replicate 24 0 } }

/-- The status byte shows its six fields as they stand, and its read clears COMMAND OVERRUN and nothing else; every other
location presents what R166 gives it, in READY and in BUSY; INTL is low exactly while an unmasked notice is pending. -/
def Obligations.ReadCyclesAndIntlShowTheState : Prop :=
  ∀ s : State, s.resetLine = .released →
    (s.intlLow = true ↔ ∃ n, Holds s n ∧ Enabled s n) ∧
    (∀ (loc : Fin 32) (n : Fin 24), loc.val = n.val → windowRead s loc = s.port.buffer[n]) ∧
    windowRead s 0x18 = s.port.code ∧ windowRead s 0x1C = s.port.noticeData.first ∧
    windowRead s 0x1D = s.port.noticeData.second ∧ windowRead s 0x1E = s.port.noticeData.third ∧
    windowRead s 0x1F = s.port.mask ∧
    (∀ x ∈ ([(.ok, 0x00), (.new, 0x01), (.merged, 0x02), (.none, 0x03), (.badField, 0x10), (.noSuch, 0x11), (.stale, 0x12),
      (.full, 0x13), (.duplicate, 0x14), (.loaded, 0x15), (.offDuty, 0x16), (.wrongState, 0x17), (.held, 0x18),
      (.planOpen, 0x19), (.planClosed, 0x1A), (.locked, 0x1B), (.inUse, 0x1C), (.badPlan, 0x1D),
      (.unknownCommand, 0x1F)] : List (ResultCode × Byte)), s.port.result = x.1 → windowRead s 0x1A = x.2) ∧
    (∃ t, exec .noticeTake s = .next t ∧ t.port.dataLines = some (windowRead s 0x1B)) ∧
    ∃ b : Byte, windowRead s 0x19 = b ∧ exec .statusRead s = .next { s with port := { s.port with overrun := false, dataLines := some b } } ∧
    b.getLsbD 7 = s.port.busy ∧
    (b.getLsbD 6 = true ↔ ∃ n, Holds s n ∧ Enabled s n) ∧
    (b.getLsbD 5 = true ↔ s.queue.entries.length ≠ 0 ∧ (highMark s ≤ s.queue.entries.length ∨
      lowMark s < s.queue.entries.length)) ∧
    (b.getLsbD 4 = true ↔ s.queue.entries.length ≠ 0 ∧ (highMark s ≤ s.queue.entries.length ∨
      s.queue.entries.length ≤ lowMark s)) ∧
    (b.getLsbD 3 = true ↔ s.plan.phase = .closed) ∧ (b.getLsbD 2 = true ↔ s.plan.phase = .openWarm) ∧
    b.getLsbD 1 = s.disp.horn ∧ b.getLsbD 0 = s.port.overrun

/-- The taking of a global notice: the highest pending notice whose group is enabled is presented with its data, and its own
latch alone is cleared; with none, NONE and zeros. -/
def Obligations.NoticeTakePresentsAndClearsTheLatch : Prop :=
  ∀ s : State, s.resetLine = .released →
    ((∀ n, Holds s n → ¬ Enabled s n) → exec .noticeTake s = .next (presents s 0 0 0 0)) ∧
    (Chosen s .restart → exec .noticeTake s =
      .next { presents s 1 (resetCauseByte s.port.resetCause) 0 0 with port := { (presents s 1
        (resetCauseByte s.port.resetCause) 0 0).port with restart := false } }) ∧
    (Chosen s .lineStuck → exec .noticeTake s =
      .next { presents s 2 0 0 0 with line := { s.line with lineStuck := false } }) ∧
    (Chosen s .lineEvent → s.line.lineEvent.event = .hold → exec .noticeTake s =
      .next { presents s 4 1 0 0 with line := { s.line with lineEvent := { latched := false, event := .hold } } }) ∧
    (Chosen s .lineEvent → s.line.lineEvent.event = .clear → exec .noticeTake s =
      .next { presents s 5 2 0 0 with line := { s.line with lineEvent := { latched := false, event := .clear } } }) ∧
    (∀ o, Chosen s .tableFull → s.calls.tableFull.origin = some o → exec .noticeTake s =
      .next { presents s 6 (originByte o) (byteOf s.calls.tableFull.count) 0 with
        calls := { s.calls with tableFull := { latched := false, origin := some o, count := 0 } } }) ∧
    (∀ b, Chosen s .unknownBadge → s.roster.unknownBadge.badge = some b → exec .noticeTake s =
      .next { presents s 8 (hiByte b) (loByte b) (flagByte s.roster.unknownBadge.overrun) with
        roster := { s.roster with unknownBadge := { latched := false, badge := some b, overrun := false } } }) ∧
    (Chosen s .queueHigh → exec .noticeTake s =
      .next { presents s 9 0 0 0 with queue := { s.queue with queueHigh := false } }) ∧
    (Chosen s .shiftCutDone → exec .noticeTake s =
      .next { presents s 11 (byteOf s.roster.shiftCutDone.switched) (byteOf s.roster.shiftCutDone.withdrawn)
          (byteOf s.roster.shiftCutDone.handedBack) with
        roster := { s.roster with shiftCutDone := { s.roster.shiftCutDone with latched := false } } }) ∧
    (Chosen s .planAutoClosed → exec .noticeTake s =
      .next { presents s 12 0 0 0 with plan := { s.plan with autoClosed := false } })

/-- The taking of a call notice: the first call of the class in the attention queue hands over its tag and its whole set and
leaves the queue, and a set that held CLOSED makes the call reported. -/
def Obligations.NoticeTakeHandsOverTheFirstCallOfTheClass : Prop :=
  ∀ (s : State) (n : NoticeSource) (kind : Byte) (cls : CallClass) (i : CallSlotNo) (c : Call)
    (earlier later : List CallSlotNo), s.resetLine = .released →
    ((n = .stopCall ∧ kind = 3 ∧ cls = .stop) ∨ (n = .urgentCall ∧ kind = 7 ∧ cls = .urgent) ∨
      (n = .routineCall ∧ kind = 10 ∧ cls = .routine)) →
    Chosen s n → s.calls.attentionQueue = earlier ++ i :: later → s.call i = some c → c.cls = cls →
    (∀ j ∈ earlier, ∀ d, s.call j = some d → d.cls ≠ cls) →
    ∃ t, exec .noticeTake s = .next t ∧ t.port = (presents s kind (s.tagOf i).byte c.attention 0).port ∧
      t.call i = some { c with attention := 0, reported := c.reported || c.attention.getLsbD 7 } ∧
      (∀ j, (t.slot j).generation = (s.slot j).generation) ∧ (∀ j, j ≠ i → t.call j = s.call j) ∧
      t.calls.attentionQueue = (earlier ++ later).filter (· ≠ i) ∧ t.calls.tableFull = s.calls.tableFull ∧
      t.roster = s.roster ∧ t.plan = s.plan ∧ t.disp = s.disp ∧ t.clock = s.clock ∧ t.queue = s.queue ∧ t.line = s.line ∧
      t.lampStale = s.lampStale ∧ t.resetLine = s.resetLine ∧ t.pending = s.pending

/-- The commands that change calls or duties are refused with PLAN OPEN while the plan is open. -/
def Obligations.ClosedPlanCommandsAreRefusedInAnOpenPlan : Prop :=
  ∀ s : State, s.plan.phase ≠ .closed → ∀ x ∈
    ([(.hostRaise, .hostRaise), (.hold, .hold), (.resume, .resume), (.closeCall, .closeCall), (.retire, .retire),
      (.assign, .assign), (.escalate, .escalate), (.repage, .repage), (.setDuty, .setDuty), (.removeCrew, .removeCrew),
      (.shiftCut, .shiftCut)] : List (HostCommand × Instr)),
    CommandWaits x.1.code s → exec x.2 s = .next (s.complete .planOpen [])

/-- A stale tag is refused with STALE and a vacant one with NO SUCH, by every command with a tag argument. -/
def Obligations.StaleAndVacantTagsAreRefused : Prop :=
  ∀ s : State, ∀ x ∈
    ([(.readCall, .readCall), (.hold, .hold), (.resume, .resume), (.closeCall, .closeCall), (.retire, .retire),
      (.assign, .assign), (.escalate, .escalate), (.repage, .repage)] : List (HostCommand × Instr)),
    CommandWaits x.1.code s → (s.plan.phase = .closed ∨ x.1 = .readCall) →
    (x.1 = .assign → badgeValid (word16 (s.arg 1) (s.arg 2)) = true) →
    ((s.slot (Tag.ofByte (s.arg 0)).slot).generation ≠ (Tag.ofByte (s.arg 0)).generation →
      exec x.2 s = .next (s.complete .stale [])) ∧
    ((s.slot (Tag.ofByte (s.arg 0)).slot).generation = (Tag.ofByte (s.arg 0)).generation →
      s.call (Tag.ofByte (s.arg 0)).slot = none → exec x.2 s = .next (s.complete .noSuch []))

/-- LINE STATE answers with the line state, the flags, both counts as they stood and the reset cause, and clears the counts;
SILENCE HORN sets the silenced flag, turns the horn off and answers how it stood. -/
def Obligations.LineStateAndSilenceHorn : Prop :=
  ∀ s : State,
    (CommandWaits 0x16 s → ∃ flags1 flags2 : Byte,
      exec .lineState s = .next ({ s with line := { s.line with receiveErrors := 0, sendFaults := 0 } }.complete .ok
        [lineStateCode s.line.state, flags1, flags2, byteOf s.line.receiveErrors, byteOf s.line.sendFaults,
          resetCauseByte s.port.resetCause]) ∧
      ∀ z : Zone, (z.val < 8 → flags1.getLsbD (7 - z.val) = s.line.answering[z]) ∧
        (8 ≤ z.val → flags2.getLsbD (15 - z.val) = s.line.answering[z])) ∧
    ((s.line.state = .silent → lineStateCode s.line.state = 0) ∧ (s.line.state = .idle → lineStateCode s.line.state = 1) ∧
      (∀ w, s.line.state = .busy w → lineStateCode s.line.state = 2) ∧
      (s.line.state = .held → lineStateCode s.line.state = 3) ∧ (s.line.state = .stuck → lineStateCode s.line.state = 4) ∧
      (s.port.resetCause = .cold → resetCauseByte s.port.resetCause = 1) ∧
      (s.port.resetCause = .warm → resetCauseByte s.port.resetCause = 2)) ∧
    (CommandWaits 0x15 s →
      exec .silenceHorn s = .next ({ s with disp := { s.disp with horn := false, silenced := true } }.complete .ok
        [if s.disp.horn then 1 else 0]))

/-! ## Reading calls and crews -/

/-- READ CALL answers with the record of the call named, in the bytes of 12.5. -/
def Obligations.ReadCallAnswersTheRecord : Prop :=
  ∀ (s : State) (i : CallSlotNo) (c : Call), CommandWaits 0x02 s → TagNames s i c →
    ∃ crews packed : List Byte,
      exec .readCall s = .next (s.complete .ok
        ([(s.tagOf i).byte,
          byteOf (callStateCode c.state + 8 * holdCode c.hold + 32 * c.reported.toNat + 64 * closeReasonCode c.closeReason),
          originByte c.origin, byteOf (16 * c.zone.val + 4 * tradeCode c.trade + classRank c.cls),
          byteOf (16 * c.raiseCount + c.unclaimedRounds), byteOf (16 * c.rung + c.triesUsed)] ++ crews ++
         [hiByte (timerWord c.timer), loByte (timerWord c.timer), byteOf c.age, c.attention, byteOf c.history.length] ++
         packed)) ∧
      crews.length = 4 ∧
      (∀ n, n < 4 → crews[n]? = some (crewSlotByte
        (if c.state = .accepted ∨ c.state = .attending then c.holder.toList[n]? else c.offerees[n]?))) ∧
      packed.length = 9 ∧
      ∀ p, p < 72 → (packed.getD (p / 8) 0).getLsbD (7 - p % 8) = (match c.history[p / 9]? with
        | some e => (8 * e.crew.val + outcomeCode e.outcome).testBit (8 - p % 9)
        | none => false)

/-- READ CREW answers with the record of the crew that a badge or a slot names, in the bytes of 12.6, and is refused for an
argument out of range and for a crew that is not there. That byte 12 is 0 without an outstanding offer is the model's choice
(log 35). -/
def Obligations.ReadCrewAnswersTheRecord : Prop :=
  ∀ s : State, CommandWaits 0x0E s →
    (∀ k c, s.crew k = some c →
      ((s.arg 0 = 0 ∧ badgeValid (word16 (s.arg 1) (s.arg 2)) = true ∧ s.enrolled (word16 (s.arg 1) (s.arg 2)) = some k) ∨
        (s.arg 0 = 1 ∧ s.arg 1 = byteOf k.val)) →
      ∃ tags : List Byte, exec .readCrew s = .next (s.complete .ok
          ([byteOf k.val, hiByte c.badge, loByte c.badge, byteOf (c.trades.toNat + 16 * gradeRank c.grade),
            byteOf (zoneNumber c.home),
            byteOf ((dutyByte c.duty).toNat + 2 * stagedCode c.staged + 8 * (s.reachable c).toNat +
              16 * c.offer.isSome.toNat),
            zoneByte c.lastSeen, byteOf c.sightAge, byteOf c.load] ++ tags ++
           [(match c.offer with
              | some t => t.byte
              | none => 0), byteOf c.idle])) ∧
        tags.length = 3 ∧ ∀ n, n < 3 → tags[n]? = some (match (s.heldCalls k)[n]? with
          | some i => (s.tagOf i).byte
          | none => 0)) ∧
    (1 < (s.arg 0).toNat ∨ (s.arg 0 = 0 ∧ badgeValid (word16 (s.arg 1) (s.arg 2)) = false) ∨
      (s.arg 0 = 1 ∧ 48 ≤ (s.arg 1).toNat) → exec .readCrew s = .next (s.complete .badField [])) ∧
    ((s.arg 0 = 0 ∧ badgeValid (word16 (s.arg 1) (s.arg 2)) = true ∧ s.enrolled (word16 (s.arg 1) (s.arg 2)) = none) ∨
      (∃ k : CrewSlotNo, s.arg 0 = 1 ∧ s.arg 1 = byteOf k.val ∧ s.crew k = none) →
      exec .readCrew s = .next (s.complete .noSuch []))

/-- FIND CALLS answers with the tag of the first call from the start slot upwards that matches every argument, with NONE where
there is none, and with BAD FIELD for an argument out of range. -/
def Obligations.FindCallsAnswersTheFirstMatch : Prop :=
  ∀ s : State, CommandWaits 0x03 s →
    (∀ f : CallFilter, f.states = s.arg 0 →
      ((s.arg 1 = 0xFF ∧ f.trade = none) ∨ ∃ t, s.arg 1 = byteOf (tradeCode t) ∧ f.trade = some t) →
      ((s.arg 2 = 0xFF ∧ f.cls = none) ∨ ∃ x, s.arg 2 = byteOf (classRank x) ∧ f.cls = some x) →
      ((s.arg 3 = 0 ∧ f.origin = none) ∨ ∃ o, s.arg 3 = originByte o ∧ f.origin = some o) →
      ((word16 (s.arg 4) (s.arg 5) = 0 ∧ f.badge = none) ∨
        (badgeValid (word16 (s.arg 4) (s.arg 5)) = true ∧ f.badge = some (word16 (s.arg 4) (s.arg 5)))) →
      s.arg 6 = byteOf f.start.val →
      (∀ i c, f.start ≤ i → s.call i = some c → Matches s f c →
        (∀ j d, f.start ≤ j → j < i → s.call j = some d → ¬ Matches s f d) →
        exec .findCalls s = .next (s.complete .ok [(s.tagOf i).byte])) ∧
      ((∀ j d, f.start ≤ j → s.call j = some d → ¬ Matches s f d) → exec .findCalls s = .next (s.complete .none []))) ∧
    ((3 < (s.arg 1).toNat ∧ s.arg 1 ≠ 0xFF) ∨ (2 < (s.arg 2).toNat ∧ s.arg 2 ≠ 0xFF) ∨
      (8 < (s.arg 3).toNat ∧ (s.arg 3).toNat < 16) ∨ 111 < (s.arg 3).toNat ∨ word16 (s.arg 4) (s.arg 5) = 0xFFFF ∨
      63 < (s.arg 6).toNat → exec .findCalls s = .next (s.complete .badField []))

/-! ## The call commands -/

/-- HOST RAISE: an argument out of range, an absent ladder, a merge, an upgrade by the state of the call, a full table, or a new
call of its desk. The WITHDRAWs of an upgrade carry the new class (the model's reading, log 12). -/
def Obligations.HostRaiseMergesRefusesOrMakesACall : Prop :=
  ∀ s : State, CommandWaits 0x01 s → s.plan.phase = .closed →
    (s.arg 0 = 0 ∨ 8 < (s.arg 0).toNat ∨ s.arg 1 = 0 ∨ 16 < (s.arg 1).toNat ∨ 3 < (s.arg 2).toNat ∨ 2 < (s.arg 3).toNat →
      exec .hostRaise s = .next (s.complete .badField [])) ∧
    ∀ (d : Fin 8) (z : Zone) (tr : Trade) (cl : CallClass), s.arg 0 = originByte (.desk d) → s.arg 1 = zoneByte (some z) →
      s.arg 2 = byteOf (tradeCode tr) → s.arg 3 = byteOf (classRank cl) →
      (s.ladder tr cl = none → exec .hostRaise s = .next (s.complete .noSuch [])) ∧
      (s.ladder tr cl ≠ none → ∀ i c, IsLiveCall s (.desk d) tr i c → classRank cl ≤ classRank c.cls →
        exec .hostRaise s = .next ((s.setSlot i { s.slot i with
          call := some { c with raiseCount := min 15 (c.raiseCount + 1) } }).complete .merged [(s.tagOf i).byte])) ∧
      (s.ladder tr cl ≠ none → NoLiveCall s (.desk d) tr → TableIsFull s →
        exec .hostRaise s = .next ({ s with calls := { s.calls with
          tableFull := { latched := true, origin := some (.desk d), count := min 255 (s.calls.tableFull.count + 1) } }
            }.complete .full [])) ∧
      (BindingOk s → DispatchOk s → s.ladder tr cl ≠ none → ∀ i c, IsLiveCall s (.desk d) tr i c →
        classRank c.cls < classRank cl → ∃ t e, exec .hostRaise s = .next t ∧ t.call i = some e ∧
          (∀ l, s.ladder tr cl = some l → UpgradedAs s t i l cl c e) ∧ e.cls = cl ∧ Completes s t .merged [(s.tagOf i).byte] ∧ OnlyReaches s t i) ∧
      ∀ i, s.ladder tr cl ≠ none → NoLiveCall s (.desk d) tr → TakesSlot s i → ∃ t, exec .hostRaise s = .next t ∧
        MadeAs s t i (raisedCall (.desk d) z tr cl) ∧ Completes s t .new [(t.tagOf i).byte] ∧ KeepsRest s t ∧
        KeepsCalls s t (· = i) ∧ KeepsCrews s t (fun _ => False)

/-- HOLD by the state of the call: it sets a COMMAND hold, takes the call from the dispatch list, freezes the timer, and
withdraws the offers of an OFFERED call, whose pagers are told. -/
def Obligations.HoldByTheStateOfTheCall : Prop :=
  ∀ (s : State) (i : CallSlotNo) (c : Call), BindingOk s → DispatchOk s → CommandWaits 0x04 s → s.plan.phase = .closed →
    TagNames s i c →
    (c.state = .closed → exec .hold s = .next (s.complete .wrongState [])) ∧
    (c.state ≠ .closed → c.hold ≠ none → exec .hold s = .next (s.complete .held [])) ∧
    (c.hold = none →
      (c.state = .accepted ∨ c.state = .attending → exec .hold s = .next ((s.setSlot i { s.slot i with
        call := some { c with hold := some .command, timer := { c.timer with expiryPending := false } } }).complete .ok
          [(s.tagOf i).byte])) ∧
      (c.state = .waiting → exec .hold s = .next (((s.setSlot i { s.slot i with
        call := some { c with hold := some .command, timer := { c.timer with expiryPending := false } } }).setDispatchList
          (s.disp.list.filter (· ≠ i))).complete .ok [(s.tagOf i).byte])) ∧
      (c.state = .unclaimed → ∃ t, exec .hold s = .next t ∧ HornRight t ∧
        t = { (s.setSlot i { s.slot i with
          call := some { c with hold := some .command, timer := { c.timer with expiryPending := false } } }).complete .ok
            [(s.tagOf i).byte] with disp := { s.disp with horn := t.disp.horn } }) ∧
      (c.state = .offered → ∃ t d, exec .hold s = .next t ∧ t.call i = some d ∧ HeldAs s c d ∧ i ∉ t.disp.list ∧
        (∀ k cr, t.crew k = some cr → cr.offer ≠ some (s.tagOf i)) ∧
        (RoomFor s c 2 → PointTold t d ∧ (BadgesOk s → OffereesTold s t i c c.cls .held (fun _ => False))) ∧
        Completes s t .ok [(s.tagOf i).byte] ∧ OnlyReaches s t i))

/-- RESUME removes a COMMAND hold: a WAITING call joins its band of the dispatch list, a frozen timer goes on from its count,
and one at 0 expires at once. That a removed ASSIGNED PAGE leaves out the WITHDRAW of a reclaim also with a PAGE in flight is
the model's reading (log 10). -/
def Obligations.ResumeByTheStateOfTheCall : Prop :=
  ∀ (s : State) (i : CallSlotNo) (c : Call), BindingOk s → DispatchOk s → CommandWaits 0x05 s → s.plan.phase = .closed →
    TagNames s i c →
    (c.state = .closed ∨ c.hold ≠ some .command → exec .resume s = .next (s.complete .wrongState [])) ∧
    (c.state ≠ .closed → c.hold = some .command →
      (c.state = .waiting → ∃ before after, before ++ after = s.disp.list ∧
        (∀ j ∈ before, classRank c.cls ≤ s.bandOf j) ∧ (∀ j ∈ after, s.bandOf j < classRank c.cls) ∧
        exec .resume s = .next (((s.setSlot i { s.slot i with call := some { c with hold := none } }).setDispatchList
          (before ++ i :: after)).complete .ok [])) ∧
      ((c.state = .accepted ∨ c.state = .attending) → (c.timer.mode = .none ∨ c.timer.count ≠ 0) →
        exec .resume s = .next ((s.setSlot i { s.slot i with call := some { c with hold := none } }).complete .ok [])) ∧
      (c.state = .unclaimed → c.timer.count ≠ 0 → ∃ t, exec .resume s = .next t ∧ HornRight t ∧
        t = { (s.setSlot i { s.slot i with call := some { c with hold := none } }).complete .ok [] with
          disp := { s.disp with horn := t.disp.horn } }) ∧
      (∀ l k, c.state = .accepted → c.timer.mode = .travel → c.timer.count = 0 → s.ladderOf c = some l → c.holder = some k →
        ∃ t d, exec .resume s = .next t ∧ t.call i = some d ∧ OverdueAs l k { c with hold := none } d ∧
          (∀ cr, s.crew k = some cr → (∃ cr', t.crew k = some cr' ∧ LosesCalls (if l.reclaim then 1 else 0) cr cr') ∧
            (l.reclaim = true → RoomFor s c 2 → FormerHolderTold s t i cr.badge c.cls .reclaimed)) ∧
          (l.reclaim = true → Joins s t i) ∧ Completes s t .ok [] ∧ KeepsRest s t ∧ KeepsCalls s t (· = i) ∧
          KeepsCrews s t (· = k)) ∧
      (c.state = .unclaimed → c.timer.count = 0 → ∃ t d, exec .resume s = .next t ∧ t.call i = some d ∧
        RetriedAs { c with hold := none } d ∧ Joins s t i ∧ HornRight t ∧ Completes s t .ok [] ∧ OnlyReaches s t i))

/-- CLOSE CALL closes a live call and tells its pagers, and RETIRE frees the slot of a closed one; each is refused for the
other's calls. That a holder's WITHDRAW is queued even behind its pending PAGE is the model's reading (log 11). -/
def Obligations.CloseCallAndRetire : Prop :=
  ∀ (s : State) (i : CallSlotNo) (c : Call), BindingOk s → s.plan.phase = .closed → TagNames s i c →
    (CommandWaits 0x06 s → c.state = .closed → exec .closeCall s = .next (s.complete .wrongState [])) ∧
    (CommandWaits 0x06 s → c.state ≠ .closed → ∃ t d, exec .closeCall s = .next t ∧ t.call i = some d ∧
      ClosedAs .closedByCommand c d ∧ i ∉ t.disp.list ∧
      (∀ k cr, c.holder = some k → s.crew k = some cr → ∃ cr', t.crew k = some cr' ∧ LosesCalls 1 cr cr') ∧
      (∀ k cr, t.crew k = some cr → cr.offer ≠ some (s.tagOf i)) ∧ (RoomFor s c 2 → CloseTold s t i c d) ∧
      Completes s t .ok [(s.tagOf i).byte] ∧ KeepsRest s t ∧ KeepsCalls s t (· = i) ∧
      KeepsCrews s t (fun k => c.holder = some k)) ∧
    (CommandWaits 0x07 s → c.state ≠ .closed → exec .retire s = .next (s.complete .wrongState [])) ∧
    (CommandWaits 0x07 s → c.state = .closed → exec .retire s = .next (((s.setSlot i { s.slot i with
      call := none }).setAttentionQueue (s.calls.attentionQueue.filter (· ≠ i))).complete .ok []))

/-- ASSIGN: its checks in order, then the crew is the holder, its offer on another call is taken from that call, every other offer
of the call is withdrawn, and an ASSIGNED PAGE is queued. -/
def Obligations.AssignChecksThenMakesTheHolder : Prop :=
  ∀ (s : State) (i : CallSlotNo) (c : Call) (b : Badge), BindingOk s → BadgesOk s → CommandWaits 0x08 s →
    s.plan.phase = .closed → b = word16 (s.arg 1) (s.arg 2) →
    (badgeValid b = false → exec .assign s = .next (s.complete .badField [])) ∧
    (badgeValid b = true → TagNames s i c →
      (c.state = .accepted ∨ c.state = .attending ∨ c.state = .closed →
        exec .assign s = .next (s.complete .wrongState [])) ∧
      (c.state = .waiting ∨ c.state = .offered ∨ c.state = .unclaimed →
        (c.hold ≠ none → exec .assign s = .next (s.complete .held [])) ∧
        (c.hold = none → s.enrolled b = none → exec .assign s = .next (s.complete .noSuch [])) ∧
        ∀ k cr, c.hold = none → s.enrolled b = some k → s.crew k = some cr →
          (cr.duty = .off → exec .assign s = .next (s.complete .offDuty [])) ∧
          (cr.duty = .on → s.plan.loadLimit ≤ cr.load → exec .assign s = .next (s.complete .loaded [])) ∧
          (cr.duty = .on → cr.load < s.plan.loadLimit → ∃ t d, exec .assign s = .next t ∧ t.call i = some d ∧
            d = { c with
              state := .accepted, holder := some k, offerees := [], attention := c.attention ||| 0x02,
              timer := travelLoaded s c, history := d.history, triesUsed := d.triesUsed } ∧
            (c.offerees = [] ∨ c.offerees = [k] → d.history = c.history ∧ d.triesUsed = c.triesUsed) ∧
            t.crew k = some { cr with load := cr.load + 1, offer := none } ∧
            (∀ l e, t.crew l = some e → e.offer ≠ some (s.tagOf i)) ∧ i ∉ t.disp.list ∧
            (RoomFor s c 4 → d.history = allWithdrawn c.history (c.offerees.filter (· ≠ k)) ∧ d.triesUsed = c.triesUsed ∧
              PointTold t d ∧ OffereesTold s t i c c.cls .taken (· = k) ∧
              ∀ j v r, j ≠ i → cr.offer = some (s.tagOf j) → s.call j = some v → s.rungOf v = some r → ∃ w,
                t.call j = some w ∧ LosesOffer k (triesGivenBack r v) v w ∧ ShowsItsLoss s t j k v ∧
                PagerTold s t j b v.cls .preEmpted) ∧
            (s.queue.entries.length + c.offerees.length + 4 ≤ 24 →
              (∀ e ∈ s.queue.entries, e.pendingPage (s.tagOf i) b = false) → ∃ e ∈ t.queue.entries,
                e = Entry.fresh (.page { tag := s.tagOf i, badge := b, trade := c.trade, cls := c.cls, zone := c.zone,
                                         origin := c.origin, rung := c.rung, mode := .assigned }) c.cls) ∧
            Completes s t .ok [(s.tagOf i).byte, byteOf k.val] ∧ KeepsRest s t ∧ KeepsCalls s t (· = i) ∧
            KeepsCrews s t (· = k))))

/-- ESCALATE makes a running timer expire at once, by its mode, tells the pagers, and answers with the state then; it is
refused for a call that is closed, held or without a timer. That a removed ASSIGNED PAGE leaves out the WITHDRAW of a reclaim
also with a PAGE in flight is the model's reading (log 10). -/
def Obligations.EscalateExpiresTheTimer : Prop :=
  ∀ (s : State) (i : CallSlotNo) (c : Call), BindingOk s → CommandWaits 0x09 s → s.plan.phase = .closed → TagNames s i c →
    (c.state = .closed → exec .escalate s = .next (s.complete .wrongState [])) ∧
    (c.state ≠ .closed → c.hold ≠ none → exec .escalate s = .next (s.complete .held [])) ∧
    (c.state ≠ .closed → c.hold = none → c.timer.mode = .none → exec .escalate s = .next (s.complete .wrongState [])) ∧
    (c.hold = none → c.timer.mode = .offer → ∃ t d, exec .escalate s = .next t ∧ t.call i = some d ∧ LapsedAs s c d ∧
      Joins s t i ∧ (RoomFor s c 2 → PointTold t d ∧ (BadgesOk s → OffereesTold s t i c c.cls .lapsed (fun _ => False))) ∧
      Completes s t .ok [(s.tagOf i).byte, 1] ∧ OnlyReaches s t i) ∧
    (∀ l k cr, c.hold = none → c.timer.mode = .travel → s.ladderOf c = some l → c.holder = some k → s.crew k = some cr →
      ∃ t d cr', exec .escalate s = .next t ∧ t.call i = some d ∧ OverdueAs l k c d ∧ t.crew k = some cr' ∧
        LosesCalls (if l.reclaim then 1 else 0) cr cr' ∧ (l.reclaim = true → Joins s t i) ∧
        (l.reclaim = true → RoomFor s c 2 → PointTold t d ∧ FormerHolderTold s t i cr.badge c.cls .reclaimed) ∧
        Completes s t .ok [(s.tagOf i).byte, if l.reclaim then 1 else 3] ∧ KeepsRest s t ∧ KeepsCalls s t (· = i) ∧
        KeepsCrews s t (· = k)) ∧
    (c.hold = none → c.timer.mode = .retry → ∃ t d, exec .escalate s = .next t ∧ t.call i = some d ∧ RetriedAs c d ∧
      Joins s t i ∧ Completes s t .ok [(s.tagOf i).byte, 1] ∧ OnlyReaches s t i)

/-- REPAGE reloads the timer of an OFFERED or ACCEPTED call, pages every offeree again, and counts the pages queued, kept and
refused. That the counts are of the offeree set as the command finds it is the model's choice (log 38). -/
def Obligations.RepageReloadsAndPages : Prop :=
  ∀ (s : State) (i : CallSlotNo) (c : Call), BindingOk s → BadgesOk s → CommandWaits 0x0A s → s.plan.phase = .closed →
    TagNames s i c →
    (c.state = .waiting ∨ c.state = .attending ∨ c.state = .unclaimed ∨ c.state = .closed → c.hold = none →
      exec .repage s = .next (s.complete .wrongState [])) ∧
    (c.state ≠ .closed → c.hold ≠ none → exec .repage s = .next (s.complete .held [])) ∧
    (c.state = .accepted → c.hold = none → ∀ l, s.ladderOf c = some l →
      (l.travel = none → exec .repage s = .next (s.complete .wrongState [])) ∧
      ∀ n, l.travel = some n → exec .repage s = .next ((s.setSlot i { s.slot i with
        call := some { c with timer := { mode := .travel, count := n, expiryPending := false } } }).complete .ok
          [(s.tagOf i).byte, byteOf (n / 30)])) ∧
    ∀ r, c.state = .offered → s.rungOf c = some r →
      ∃ t queued kept refused, exec .repage s = .next t ∧ queued + kept + refused = c.offerees.length ∧
        Completes s t .ok [(s.tagOf i).byte, byteOf queued, byteOf kept, byteOf refused] ∧ OnlyReaches s t i ∧
        (s.queue.entries.length + c.offerees.length ≤ 24 →
          refused = 0 ∧
          kept = (c.offerees.filter (fun k => match s.crew k with
            | some cr => s.queue.entries.any (fun e => e.pendingPage (s.tagOf i) cr.badge)
            | none => false)).length ∧
          t.call i = some { c with timer := { mode := .offer, count := r.offerTime, expiryPending := false } } ∧
          (∀ j, j ≠ i → t.slot j = s.slot j) ∧ t.roster = s.roster ∧ t.disp = s.disp ∧
          ∀ k ∈ c.offerees, ∀ cr, s.crew k = some cr →
            (∃ e ∈ t.queue.entries, e.pendingPage (s.tagOf i) cr.badge = true) ∧
            (∀ e ∈ s.queue.entries, e.pendingPage (s.tagOf i) cr.badge = true → e ∈ t.queue.entries) ∧
            ((∀ e ∈ s.queue.entries, e.pendingPage (s.tagOf i) cr.badge = false) →
              pageEntry (s.tagOf i) cr.badge c c.rung r ∈ t.queue.entries))

/-! ## The roster commands -/

/-- ENROL, AMEND and STAGE DUTY: their refusals in order, and the one record each writes. -/
def Obligations.EnrolAmendAndStageDuty : Prop :=
  ∀ (s : State) (b : Badge), b = word16 (s.arg 0) (s.arg 1) →
    (badgeValid b = false ∨ (s.arg 2).extractLsb' 0 4 = 0 ∨ 2 < (s.arg 3).toNat ∨ s.arg 4 = 0 ∨ 16 < (s.arg 4).toNat →
      (CommandWaits 0x0B s → exec .enrol s = .next (s.complete .badField [])) ∧
      (CommandWaits 0x0C s → exec .amend s = .next (s.complete .badField []))) ∧
    (∀ g z, badgeValid b = true → (s.arg 2).extractLsb' 0 4 ≠ 0 → s.arg 3 = byteOf (gradeRank g) →
      s.arg 4 = zoneByte (some z) →
      (CommandWaits 0x0B s →
        (s.enrolled b ≠ none → exec .enrol s = .next (s.complete .duplicate [])) ∧
        (s.enrolled b = none → (∀ k, s.crew k ≠ none) → exec .enrol s = .next (s.complete .full [])) ∧
        ∀ k, s.enrolled b = none → s.crew k = none → (∀ l, l < k → s.crew l ≠ none) →
          exec .enrol s = .next ((s.setCrew k (some
            { badge := b, trades := (s.arg 2).extractLsb' 0 4, grade := g, home := z, duty := .off, staged := none,
              lastSeen := none, sightAge := 255, load := 0, offer := none, idle := 0 })).complete .ok [byteOf k.val])) ∧
      (CommandWaits 0x0C s →
        (s.enrolled b = none → exec .amend s = .next (s.complete .noSuch [])) ∧
        ∀ k cr, s.enrolled b = some k → s.crew k = some cr → exec .amend s = .next ((s.setCrew k (some
          { cr with trades := (s.arg 2).extractLsb' 0 4, grade := g, home := z })).complete .ok [byteOf k.val]))) ∧
    (CommandWaits 0x10 s →
      (badgeValid b = false ∨ 2 < (s.arg 2).toNat → exec .stageDuty s = .next (s.complete .badField [])) ∧
      (badgeValid b = true → (s.arg 2).toNat ≤ 2 → s.enrolled b = none →
        exec .stageDuty s = .next (s.complete .noSuch [])) ∧
      ∀ k cr staged, badgeValid b = true → s.enrolled b = some k → s.crew k = some cr →
        ((s.arg 2 = 0 ∧ staged = some Duty.off) ∨ (s.arg 2 = 1 ∧ staged = some Duty.on) ∨ (s.arg 2 = 2 ∧ staged = none)) →
        exec .stageDuty s = .next ((s.setCrew k (some { cr with staged := staged })).complete .ok
          [byteOf k.val, byteOf (stagedCode cr.staged)]))

/-- SET DUTY and REMOVE CREW: their refusals, the duty written, a crew that goes OFF, and a crew removed with its offer and
with every history entry that names it; the pagers are told. That a removed ASSIGNED PAGE leaves out the WITHDRAW of a
hand-back also with a PAGE in flight is the model's reading (log 10). -/
def Obligations.SetDutyAndRemoveCrew : Prop :=
  ∀ (s : State) (b : Badge), BindingOk s → BadgesOk s → s.plan.phase = .closed → b = word16 (s.arg 0) (s.arg 1) →
    (CommandWaits 0x0F s →
      (badgeValid b = false ∨ 1 < (s.arg 2).toNat → exec .setDuty s = .next (s.complete .badField [])) ∧
      (badgeValid b = true → (s.arg 2).toNat ≤ 1 → s.enrolled b = none → exec .setDuty s = .next (s.complete .noSuch [])) ∧
      ∀ k cr, badgeValid b = true → s.enrolled b = some k → s.crew k = some cr →
        (s.arg 2 = 1 → exec .setDuty s = .next ((s.setCrew k (some { cr with duty := .on })).complete .ok
          [byteOf k.val, dutyByte cr.duty, 0, 0])) ∧
        (s.arg 2 = 0 → cr.duty = .off → exec .setDuty s = .next (s.complete .ok [byteOf k.val, 0, 0, 0])) ∧
        (s.arg 2 = 0 → cr.duty = .on → ∃ t, exec .setDuty s = .next t ∧ GoesOff s t k cr cr.staged ∧
          Completes s t .ok [byteOf k.val, 1, flagByte cr.offer.isSome, byteOf (s.acceptedCalls k).length] ∧
          KeepsRest s t)) ∧
    (CommandWaits 0x0D s →
      (badgeValid b = false → exec .removeCrew s = .next (s.complete .badField [])) ∧
      (badgeValid b = true → s.enrolled b = none → exec .removeCrew s = .next (s.complete .noSuch [])) ∧
      ∀ k cr, badgeValid b = true → s.enrolled b = some k → s.crew k = some cr →
        (cr.load ≠ 0 → exec .removeCrew s = .next (s.complete .loaded [])) ∧
        (cr.load = 0 → ∃ t, exec .removeCrew s = .next t ∧ t.crew k = none ∧
          (∀ i c, t.call i = some c → k ∉ c.offerees ∧ ∀ e ∈ c.history, e.crew ≠ k) ∧
          (∀ i c, s.call i = some c → (c.offerees = [] →
              t.call i = some { c with history := c.history.filter (fun e => e.crew ≠ k) }) ∧
            ∃ d, t.call i = some d ∧ (∀ l ∈ d.offerees, l ∈ c.offerees) ∧
              (d.offerees = c.offerees → d = { c with history := c.history.filter (fun e => e.crew ≠ k) }) ∧
              d = { c with state := d.state, triesUsed := d.triesUsed, offerees := d.offerees, history := d.history, timer := d.timer }) ∧
          (s.queue.entries.length + 2 ≤ 24 → ∀ i c, cr.offer = some (s.tagOf i) → s.call i = some c → ∃ d,
            t.call i = some { d with history := d.history.filter (fun e => e.crew ≠ k) } ∧
            LosesOffer k c.triesUsed c d ∧ ShowsItsLoss s t i k c ∧ PagerTold s t i cr.badge c.cls .handover) ∧
          (∀ i, s.call i = none → t.call i = none) ∧ (∀ i, (t.slot i).generation = (s.slot i).generation) ∧
          Completes s t .ok [byteOf k.val] ∧ KeepsRest s t ∧ KeepsCrews s t (· = k)))

/-! ## The shift cut -/

/-- SHIFT CUT starts the walk at slot 0 with tallies 0, and each step treats its slot by the staged duty and the duty; the step
at slot 47 completes the command and sets the SHIFT CUT DONE latch. A step without a walk changes nothing (the model's choice,
log 2), the IDLE walk keeps its tallies (the model's reading, log 25), and a removed ASSIGNED PAGE leaves out the WITHDRAW of a
hand-back also with a PAGE in flight (the model's reading, log 10). -/
def Obligations.ShiftCutWalksEverySlot : Prop :=
  (∀ s : State, CommandWaits 0x11 s → s.plan.phase = .closed → exec .shiftCut s = .next { s with roster := { s.roster with
    walk := { progress := .walking 0, switched := 0, withdrawn := 0, handedBack := 0 } } }) ∧
  (∀ s : State, s.roster.walk.progress = .idle → exec .shiftCutStep s = .next s) ∧
  ∀ (s : State) (k : CrewSlotNo) (w : Walk), BindingOk s → s.resetLine = .released → s.roster.walk = w →
    w.progress = .walking k →
    ∃ (t : State) (switched withdrawn handedBack : Nat), exec .shiftCutStep s = .next t ∧
      KeepsRest s { t with roster := { t.roster with walk := w, shiftCutDone := s.roster.shiftCutDone } } ∧
      (∀ l : CrewSlotNo, l.val = k.val + 1 → t.port = s.port ∧ t.roster.shiftCutDone = s.roster.shiftCutDone ∧
        t.roster.walk =
          { progress := .walking l, switched := switched, withdrawn := withdrawn, handedBack := handedBack }) ∧
      (k = 47 → Completes s t .ok [byteOf switched, byteOf withdrawn, byteOf handedBack] ∧
        t.roster.shiftCutDone =
          { latched := true, switched := switched, withdrawn := withdrawn, handedBack := handedBack } ∧
        t.roster.walk = { progress := .idle, switched := switched, withdrawn := withdrawn, handedBack := handedBack }) ∧
      (s.crew k = none → t.roster.crews = s.roster.crews ∧ t.calls = s.calls ∧
        switched = w.switched ∧ withdrawn = w.withdrawn ∧ handedBack = w.handedBack) ∧
      ∀ cr, s.crew k = some cr →
        (cr.staged = none ∨ cr.staged = some cr.duty → t.crew k = some { cr with staged := none } ∧
          (∀ l, l ≠ k → t.crew l = s.crew l) ∧ t.calls = s.calls ∧ t.disp = s.disp ∧ t.queue = s.queue ∧
          switched = w.switched ∧ withdrawn = w.withdrawn ∧ handedBack = w.handedBack) ∧
        (cr.staged = some .on → cr.duty = .off → t.crew k = some { cr with duty := .on, staged := none } ∧
          (∀ l, l ≠ k → t.crew l = s.crew l) ∧ t.calls = s.calls ∧ t.disp = s.disp ∧ t.queue = s.queue ∧
          switched = w.switched + 1 ∧ withdrawn = w.withdrawn ∧ handedBack = w.handedBack) ∧
        (cr.staged = some .off → cr.duty = .on → GoesOff s t k cr none ∧ switched = w.switched + 1 ∧
          withdrawn = w.withdrawn + (if cr.offer = none then 0 else 1) ∧
          handedBack = w.handedBack + (s.acceptedCalls k).length)

/-! ## The plan -/

/-- PLAN WRITE: its ordered refusals, and the IN USE and BAD PLAN refusals of a warm session. That the codes 5 to 7 of a rung's
mode are out of range is the model's reading (log 19). -/
def Obligations.PlanWriteIsRefusedInOrder : Prop :=
  ∀ s : State, CommandWaits 0x12 s →
    (s.plan.phase = .closed → exec .planWrite s = .next (s.complete .planClosed [])) ∧
    (s.plan.phase ≠ .closed →
      ((∀ item : PlanItem, item.bytes ≠ [s.arg 0, s.arg 1]) → exec .planWrite s = .next (s.complete .badField [])) ∧
      (s.plan.phase = .openWarm → PlanItem.lineSettings.bytes = [s.arg 0, s.arg 1] →
        exec .planWrite s = .next (s.complete .locked [])) ∧
      (s.arg 0 = 1 ∧ (1 < (s.arg 2).toNat ∨ 4 < (s.arg 3).toNat ∨
          ∃ m : Fin 4, m.val < (s.arg 3).toNat ∧
            (s.arg ⟨4 + m.val, by omega⟩ = 0 ∨ 16 < (s.arg ⟨4 + m.val, by omega⟩).toNat ∨
              s.arg ⟨4 + m.val, by omega⟩ = s.arg 1 ∨
              ∃ n : Fin 4, n.val < m.val ∧ s.arg ⟨4 + n.val, by omega⟩ = s.arg ⟨4 + m.val, by omega⟩)) ∨
        s.arg 0 = 2 ∧ (16 < (s.arg 2).toNat ∨
          1 < (s.arg 3).toNat ∨ (s.arg 2 = 0 ∧ s.arg 3 = 1)) ∨
        s.arg 0 = 3 ∧ (6 < (s.arg 2).toNat ∨ (s.arg 2 ≠ 0 ∧ (120 < (s.arg 3).toNat ∨ 1 < (s.arg 4).toNat ∨ s.arg 5 = 0 ∨
          60 < (s.arg 5).toNat ∨ ∃ n : Fin 6, n.val < (s.arg 2).toNat ∧
            ((s.arg ⟨6 + 2 * n.val, by omega⟩).toNat / 64 = 3 ∨ (s.arg ⟨6 + 2 * n.val, by omega⟩).toNat / 16 % 4 = 3 ∨
              4 < (s.arg ⟨6 + 2 * n.val, by omega⟩).toNat % 8 ∨ s.arg ⟨7 + 2 * n.val, by omega⟩ = 0 ∨
              180 < (s.arg ⟨7 + 2 * n.val, by omega⟩).toNat)))) ∨
        s.arg 0 = 4 ∧ (s.arg 2 = 0 ∨ 3 < (s.arg 2).toNat) ∨ s.arg 0 = 5 ∧ (s.arg 2).toNat < 15 ∨
        s.arg 0 = 6 ∧ (22 < (s.arg 2).toNat ∨ 23 < (s.arg 3).toNat) ∨
        s.arg 0 = 7 ∧ (s.arg 2 = 0 ∨ 4 < (s.arg 2).toNat) ∨
        (s.plan.phase = .openCold ∧ s.arg 0 = 8 ∧ (1 < (s.arg 2).toNat ∨ 1 < (s.arg 3).toNat)) →
        exec .planWrite s = .next (s.complete .badField [])) ∧
      ∀ x : PlanContents, LegalContents x →
        BufferHolds s ((itemOf x).bytes ++ (s.storeItem x).itemBytes (itemOf x)) → s.plan.phase = .openWarm →
        (∀ l, x ≠ .lineSettings l) →
        (∀ b, FailsCheck x b → exec .planWrite s = .next (s.complete .badPlan ((itemOf x).bytes ++ [b]))) ∧
        ∀ t cl i, x = .ladder t cl none → (∃ c, s.call i = some c ∧ c.state ≠ .closed ∧ c.trade = t ∧ c.cls = cl) →
          (∀ j c, j < i → s.call j = some c → c.state = .closed ∨ c.trade ≠ t ∨ c.cls ≠ cl) →
          exec .planWrite s = .next (s.complete .inUse [(s.tagOf i).byte, byteOf (callSlots.filter (fun j =>
            match s.call j with
              | some c => c.state ≠ .closed ∧ c.trade = t ∧ c.cls = cl
              | none => false)).length]))

/-- PLAN WRITE stores legal contents as the buffer holds them: in a cold session with the code of the check they fail, in a warm
one with the number of calls that the new ladder clamps; PLAN READ shows what is stored. -/
def Obligations.PlanWriteStoresAndPlanReadShows : Prop :=
  (∀ (s : State) (x : PlanContents), CommandWaits 0x12 s → LegalContents x →
    BufferHolds s ((itemOf x).bytes ++ (s.storeItem x).itemBytes (itemOf x)) →
    (s.plan.phase = .openCold →
      (∀ b, FailsCheck x b → exec .planWrite s = .next ((s.storeItem x).complete .ok ((itemOf x).bytes ++ [b]))) ∧
      ((∀ b, ¬ FailsCheck x b) → exec .planWrite s = .next ((s.storeItem x).complete .ok ((itemOf x).bytes ++ [0])))) ∧
    (s.plan.phase = .openWarm → (∀ b, ¬ FailsCheck x b) →
      ((∀ t cl l, x ≠ .ladder t cl l) → (∀ l, x ≠ .lineSettings l) →
        exec .planWrite s = .next ((s.storeItem x).complete .ok ((itemOf x).bytes ++ [0]))) ∧
      (∀ t cl, x = .ladder t cl none → (∀ i c, s.call i = some c → c.state = .closed ∨ c.trade ≠ t ∨ c.cls ≠ cl) →
        exec .planWrite s = .next ((s.storeItem x).complete .ok ((itemOf x).bytes ++ [0]))) ∧
      ∀ tr cl l, x = .ladder tr cl (some l) → ∃ t, exec .planWrite s = .next t ∧
        t = { (s.storeItem x) with calls := { s.calls with slots := t.calls.slots }, port := t.port } ∧
        (∀ i, (t.slot i).generation = (s.slot i).generation ∧ (s.call i = none → t.call i = none) ∧
          ∀ c, s.call i = some c → ∃ d, t.call i = some d ∧
            (c.state ≠ .closed ∧ c.trade = tr ∧ c.cls = cl → ClampedTo l c d) ∧
            (c.state = .closed ∨ c.trade ≠ tr ∨ c.cls ≠ cl → d = c)) ∧
        Completes s t .ok ((itemOf x).bytes ++ [byteOf (callSlots.filter (fun i => s.call i ≠ t.call i)).length]))) ∧
  ∀ (s : State), CommandWaits 0x13 s →
    (∀ item : PlanItem, item.bytes = [s.arg 0, s.arg 1] →
      exec .planRead s = .next (s.complete .ok (item.bytes ++ s.itemBytes item))) ∧
    ((∀ item : PlanItem, item.bytes ≠ [s.arg 0, s.arg 1]) → exec .planRead s = .next (s.complete .badField []))

/-- PLAN CLOSE and AUTO CLOSE: the validation of a cold plan and its close, the close of a warm one with its resume pass, and
the refusal of a closed one. The resumed WAITING calls join the list in class order and within a class in slot order, and every
point with a live call is sent its lamps, or is lamp-stale where there is no room. An AUTO CLOSE that is not due changes nothing (log 2), its expiry is pending while the count
stands at 0 (log 36), and a stopped count holds no number (log 37): these are the model's choices. -/
def Obligations.PlanCloseAndAutoClose : Prop :=
  (∀ s : State, (s.plan.phase ≠ .openWarm ∨ s.plan.autoClose ≠ some 0) → exec .autoClose s = .next s) ∧
  (∀ s : State, CommandWaits 0x14 s →
    (s.plan.phase = .closed → exec .planClose s = .next (s.complete .planClosed [])) ∧
    (s.plan.phase = .openCold →
      (∀ tr cl b, FailsCheck (.ladder tr cl (s.ladder tr cl)) b →
        (∀ tr' cl' b', ladderIndex tr' cl' < ladderIndex tr cl → ¬ FailsCheck (.ladder tr' cl' (s.ladder tr' cl')) b') →
        exec .planClose s = .next (s.complete .badPlan [3, byteOf (16 * tradeCode tr + classRank cl), b])) ∧
      ((∀ tr cl b, ¬ FailsCheck (.ladder tr cl (s.ladder tr cl)) b) →
        (FailsCheck (.thresholds s.plan.thresholdLow s.plan.thresholdHigh) 3 →
          exec .planClose s = .next (s.complete .badPlan [6, 0, 3])) ∧
        ((∀ b, ¬ FailsCheck (.thresholds s.plan.thresholdLow s.plan.thresholdHigh) b) →
          exec .planClose s = .next ({ s with
            plan := { s.plan with phase := .closed, firstClose := true }
            line := { s.line with state := .busy .waitingForIdle, settings := s.plan.lineSettings } }.complete .ok []))))) ∧
  ∀ s : State, BindingOk s → s.plan.phase = .openWarm →
    ∀ (c : Instr) (auto : Bool),
      ((c = .planClose ∧ CommandWaits 0x14 s ∧ auto = false) ∨
        (c = .autoClose ∧ s.resetLine = .released ∧ s.plan.autoClose = some 0 ∧ auto = true)) →
      ∃ t, exec c s = .next t ∧ t.plan = { s.plan with
          phase := .closed, autoClose := none, autoClosed := s.plan.autoClosed || auto } ∧
        (auto = false → Completes s t .ok []) ∧ (auto = true → t.port = s.port) ∧
        KeepsRest { s with plan := t.plan } t ∧ KeepsCrews s t (fun _ => False) ∧ HornRight t ∧
        (∀ i, (t.slot i).generation = (s.slot i).generation ∧ (s.call i = none → t.call i = none) ∧
          ∀ x, s.call i = some x → x.offerees = [] → ∃ d, t.call i = some d ∧ ResumedAs s x d) ∧
        (∀ i x, s.call i = some x → x.state = .waiting → x.hold = some .restart → i ∈ t.disp.list) ∧
        (s.disp.list = [] → (∀ i x, s.call i = some x → x.offerees = []) →
          (∀ i, i ∈ t.disp.list → ∃ x, s.call i = some x ∧ x.state = .waiting ∧ x.hold = some .restart) ∧
          t.disp.list.Pairwise (fun i j => t.bandOf j < t.bandOf i ∨ (t.bandOf j = t.bandOf i ∧ i < j))) ∧
        (∀ p, HasLiveCall s p → LampQueued t p ∨ (t.lampStale[p] = true ∧ 24 ≤ t.queue.entries.length)) ∧
        ∀ points : List Point, (∀ p, p ∈ points ↔ HasLiveCall s p) → points.Nodup →
          s.queue.entries.length + points.length ≤ 24 →
          t.lampStale = s.lampStale ∧ ∀ p ∈ points, LampQueued t p

/-! ## The clocks and the expiries -/

/-- The tick and the minute reach their owners: the divider makes a tick for every owner, each owner takes it as an event of
its own, and so the minute that the minute count makes. That a tick or a minute on its way is counted at each owner, and that
it can also be made and taken at all of them with nothing between, is the model's choice (log 5), as are an auto-close count
that a further tick leaves at 0 (log 36) and a stopped one without a number (log 37). -/
def Obligations.TickAndMinuteReachTheirCounts : Prop :=
  (∀ s : State, s.resetLine = .released →
    (∃ t, exec (.tick .whole) s = .next t ∧
      (∀ i, (t.slot i).generation = (s.slot i).generation ∧ (s.call i = none → t.call i = none) ∧
        ∀ c, s.call i = some c → ∃ d, t.call i = some d ∧ TicksTo c d) ∧
      (∀ k, t.crew k = (s.crew k).map tickedCrew) ∧ MinuteCounted s t ∧ t = { s with
        calls := { s.calls with slots := t.calls.slots }, roster := { s.roster with crews := t.roster.crews }
        plan := { s.plan with autoClose := s.plan.autoClose.map (· - 1) }
        clock := { s.clock with
          oneSecondPhase := 0, minuteCount := t.clock.minuteCount, minuteDue := t.clock.minuteDue } }) ∧
    (∃ due, exec (.tick .divider) s = .next { s with clock := { s.clock with oneSecondPhase := 0, tickDue := due } } ∧
      (∀ i : CallSlotNo, due.timers[i] = s.clock.tickDue.timers[i] + 1) ∧
      (∀ k : CrewSlotNo, due.sightings[k] = s.clock.tickDue.sightings[k] + 1) ∧
      due.autoClose = s.clock.tickDue.autoClose + 1 ∧ due.minuteCount = s.clock.tickDue.minuteCount + 1) ∧
    (∀ (i : CallSlotNo) (n : Nat),
      (s.clock.tickDue.timers[i] = 0 → exec (.tick (.timer i)) s = .next s) ∧
      (s.clock.tickDue.timers[i] = n + 1 → ∃ t, exec (.tick (.timer i)) s = .next t ∧
        (s.call i = none → t.call i = none) ∧ (∀ c, s.call i = some c → ∃ d, t.call i = some d ∧ TicksTo c d) ∧
        t = { s with clock := { s.clock with tickDue := { s.clock.tickDue with
          timers := s.clock.tickDue.timers.set i n } } }.setSlot i { s.slot i with call := t.call i })) ∧
    (∀ (k : CrewSlotNo) (n : Nat),
      (s.clock.tickDue.sightings[k] = 0 → exec (.tick (.sighting k)) s = .next s) ∧
      (s.clock.tickDue.sightings[k] = n + 1 → exec (.tick (.sighting k)) s =
        .next ({ s with clock := { s.clock with tickDue := { s.clock.tickDue with
          sightings := s.clock.tickDue.sightings.set k n } } }.setCrew k ((s.crew k).map tickedCrew)))) ∧
    (∀ n : Nat,
      (s.clock.tickDue.autoClose = 0 → exec (.tick .autoClose) s = .next s) ∧
      (s.clock.tickDue.autoClose = n + 1 → exec (.tick .autoClose) s = .next { s with
        plan := { s.plan with autoClose := s.plan.autoClose.map (· - 1) }
        clock := { s.clock with tickDue := { s.clock.tickDue with autoClose := n } } }) ∧
      (s.clock.tickDue.minuteCount = 0 → exec (.tick .minuteCount) s = .next s) ∧
      (s.clock.tickDue.minuteCount = n + 1 → ∃ t, exec (.tick .minuteCount) s = .next t ∧ MinuteCounted s t ∧
        t = { s with clock := { s.clock with
          tickDue := { s.clock.tickDue with minuteCount := n }, minuteCount := t.clock.minuteCount
          minuteDue := t.clock.minuteDue } }))) ∧
  ∀ s : State, s.resetLine = .released →
    ((∃ i : CallSlotNo, s.clock.minuteDue.ages[i] = 0) ∨ (∃ k : CrewSlotNo, s.clock.minuteDue.idles[k] = 0) →
      exec (.minute .whole) s = .next s) ∧
    ((∀ i : CallSlotNo, s.clock.minuteDue.ages[i] ≠ 0) → (∀ k : CrewSlotNo, s.clock.minuteDue.idles[k] ≠ 0) →
      ∃ t, exec (.minute .whole) s = .next t ∧
        (∀ i, (t.slot i).generation = (s.slot i).generation ∧ t.call i = (s.call i).map agedCall ∧
          t.clock.minuteDue.ages[i] = s.clock.minuteDue.ages[i] - 1) ∧
        (∀ k, t.crew k = (s.crew k).map idledCrew ∧ t.clock.minuteDue.idles[k] = s.clock.minuteDue.idles[k] - 1) ∧
        t = { s with
          calls := { s.calls with slots := t.calls.slots }, roster := { s.roster with crews := t.roster.crews }
          clock := { s.clock with minuteDue := t.clock.minuteDue } }) ∧
    (∀ (i : CallSlotNo) (n : Nat),
      (s.clock.minuteDue.ages[i] = 0 → exec (.minute (.age i)) s = .next s) ∧
      (s.clock.minuteDue.ages[i] = n + 1 → exec (.minute (.age i)) s =
        .next ({ s with clock := { s.clock with minuteDue := { s.clock.minuteDue with
          ages := s.clock.minuteDue.ages.set i n } } }.setSlot i { s.slot i with call := (s.call i).map agedCall }))) ∧
    ∀ (k : CrewSlotNo) (n : Nat),
      (s.clock.minuteDue.idles[k] = 0 → exec (.minute (.idle k)) s = .next s) ∧
      (s.clock.minuteDue.idles[k] = n + 1 → exec (.minute (.idle k)) s =
        .next ({ s with clock := { s.clock with minuteDue := { s.clock.minuteDue with
          idles := s.clock.minuteDue.idles.set k n } } }.setCrew k ((s.crew k).map idledCrew)))

/-- The expiries of the three timer modes, each at a call whose timer has one pending and is not held; the pagers are told. One
that is not due changes nothing (the model's choice, log 2), and a removed ASSIGNED PAGE leaves out the WITHDRAW of a reclaim
also with a PAGE in flight (the model's reading, log 10). -/
def Obligations.ExpiriesLapseOverdueAndRetry : Prop :=
  ∀ (s : State) (i : CallSlotNo), s.resetLine = .released →
    (∀ c, BindingOk s → s.call i = some c → c.hold = none → c.timer.expiryPending = true →
      (c.timer.mode = .offer → ∃ t d, exec (.offerExpiry i) s = .next t ∧ t.call i = some d ∧ LapsedAs s c d ∧
        Joins s t i ∧ (∀ k cr, t.crew k = some cr → cr.offer ≠ some (s.tagOf i)) ∧
        (RoomFor s c 2 → PointTold t d ∧ (BadgesOk s → OffereesTold s t i c c.cls .lapsed (fun _ => False))) ∧ t.port = s.port ∧
        OnlyReaches s t i) ∧
      (∀ l k cr, c.timer.mode = .travel → s.ladderOf c = some l → c.holder = some k → s.crew k = some cr →
        ∃ t d cr', exec (.travelExpiry i) s = .next t ∧ t.call i = some d ∧ OverdueAs l k c d ∧ t.crew k = some cr' ∧
          LosesCalls (if l.reclaim then 1 else 0) cr cr' ∧ (l.reclaim = true → Joins s t i) ∧
          (l.reclaim = true → RoomFor s c 2 → PointTold t d ∧ FormerHolderTold s t i cr.badge c.cls .reclaimed) ∧
          t.port = s.port ∧
          KeepsRest s t ∧ KeepsCalls s t (· = i) ∧ KeepsCrews s t (· = k)) ∧
      (c.timer.mode = .retry → ∃ t d, exec (.retryExpiry i) s = .next t ∧ t.call i = some d ∧ RetriedAs c d ∧
        Joins s t i ∧ (c.cls = .stop → HornRight t) ∧ t.port = s.port ∧ OnlyReaches s t i)) ∧
    ∀ m : TimerMode, (∀ c, s.call i = some c → c.timer.mode ≠ m ∨ c.timer.expiryPending = false ∨ c.hold ≠ none) →
      (m = .offer → exec (.offerExpiry i) s = .next s) ∧ (m = .travel → exec (.travelExpiry i) s = .next s) ∧
        (m = .retry → exec (.retryExpiry i) s = .next s)

/-! ## Dispatch -/

/-- The candidates of a call at a rung are exactly the eligible crews, each once, in candidate order. -/
def Obligations.CandidatesAreTheEligibleCrewsInOrder : Prop :=
  ∀ (s : State) (c : Call) (r : Rung), RangesOk s →
    (∀ k, k ∈ s.candidates c r ↔ Eligible s c r k) ∧ (s.candidates c r).Nodup ∧
      (s.candidates c r).Pairwise (Precedes s c.zone)

/-- A turn passes over the calls that cannot be served and offers the first other call of the list at the first rung that
chooses somebody: the chosen crews are its offerees, each with a PAGE, the OFFER timer runs and the call leaves the list. A
STOP turn that is one position short displaces the youngest
pending ROUTINE entry, and a displaced PAGE ends its offer. -/
def Obligations.DispatchTurnOffersToTheChosenCrews : Prop :=
  (∀ (s : State) (i : CallSlotNo) (passed rest : List CallSlotNo) (c : Call) (l : Ladder) (n : Nat) (r : Rung)
    (chosen : List CrewSlotNo),
    BindingOk s → DispatchOk s → BadgesOk s → s.resetLine = .released → s.plan.phase = .closed →
    s.disp.list = passed ++ i :: rest → (∀ j ∈ passed, PassedOver s j) →
    s.call i = some c → s.ladderOf c = some l → l.rungs[n]? = some r → TurnReaches s c l n →
    chosenFrom s c r (triesAt c n) = chosen → chosen ≠ [] → (∀ k ∈ chosen, ∀ cr, s.crew k = some cr → cr.offer = none) →
    (c.cls = .routine → s.queue.throttled = false) → s.queue.entries.length + chosen.length + 1 ≤ 24 →
    ∃ t, exec .dispatchTurn s = .next t ∧
      t.call i = some { c with
        state := .offered, offerees := chosen, rung := n, triesUsed := triesAt c n + 1,
        timer := { mode := .offer, count := r.offerTime, expiryPending := false } } ∧
      (∀ k ∈ chosen, ∀ cr, s.crew k = some cr → t.crew k = some { cr with offer := some (s.tagOf i) } ∧
        (∃ e ∈ t.queue.entries, e.pendingPage (s.tagOf i) cr.badge = true) ∧
        ((∀ e ∈ s.queue.entries, e.pendingPage (s.tagOf i) cr.badge = false) →
          pageEntry (s.tagOf i) cr.badge c n r ∈ t.queue.entries)) ∧
      (∀ k, k ∉ chosen → t.crew k = s.crew k) ∧ (∀ j, j ≠ i → t.slot j = s.slot j) ∧
      t.disp = { s.disp with list := passed ++ rest } ∧
      t.calls.attentionQueue = s.calls.attentionQueue ∧ t.line = s.line ∧ t.lampStale = s.lampStale ∧ t.port = s.port ∧
      KeepsRest s t) ∧
  ∀ (s : State) (i : CallSlotNo) (passed rest : List CallSlotNo) (c : Call) (l : Ladder) (n : Nat) (r : Rung)
    (chosen : List CrewSlotNo) (a b : List Entry) (e : Entry) (desk : Fin 8),
    BindingOk s → DispatchOk s → BadgesOk s → s.resetLine = .released → s.plan.phase = .closed →
    s.disp.list = passed ++ i :: rest → (∀ j ∈ passed, PassedOver s j) → s.call i = some c → c.cls = .stop → c.origin = .desk desk → s.ladderOf c = some l → l.rungs[n]? = some r →
    TurnReaches s c l n → chosenFrom s c r (triesAt c n) = chosen → chosen ≠ [] →
    (∀ k ∈ chosen, ∀ cr, s.crew k = some cr → cr.offer = none) → s.queue.entries.length + chosen.length = 25 →
    s.queue.entries = a ++ e :: b → e.inFlight = false → e.band = .routine →
    (∀ x ∈ b, x.inFlight = true ∨ x.band ≠ .routine) →
    (∀ g v, e.content = .page g → s.call g.tag.slot = some v → ∃ d, v.origin = .desk d) →
    ∃ t, exec .dispatchTurn s = .next t ∧
      t.call i = some { c with
        state := .offered, offerees := chosen, rung := n, triesUsed := triesAt c n + 1,
        timer := { mode := .offer, count := r.offerTime, expiryPending := false } } ∧
      (∀ k ∈ chosen, ∀ cr, s.crew k = some cr → t.crew k = some { cr with offer := some (s.tagOf i) } ∧
        (∃ x ∈ t.queue.entries, x.pendingPage (s.tagOf i) cr.badge = true) ∧
        ((∀ x ∈ s.queue.entries, x.pendingPage (s.tagOf i) cr.badge = false) →
          pageEntry (s.tagOf i) cr.badge c n r ∈ t.queue.entries)) ∧
      (∀ x ∈ t.queue.entries, x ∈ a ++ b ∨ ∃ k ∈ chosen, ∃ cr, s.crew k = some cr ∧
        x.pendingPage (s.tagOf i) cr.badge = true) ∧ i ∉ t.disp.list ∧ t.line = s.line ∧ t.port = s.port ∧ KeepsRest s t ∧
      (∀ w, e.content = .withdraw w → t.lampStale = s.lampStale ∧ ∀ j, j ≠ i → t.slot j = s.slot j) ∧
      (∀ p x, e.content = .lamp p x → t.lampStale = s.lampStale.set p true ∧ ∀ j, j ≠ i → t.slot j = s.slot j) ∧
      ∀ g, e.content = .page g → t.lampStale = s.lampStale ∧
        (g.mode = .assigned ∨ (∀ k v, s.enrolled g.badge = some k → g.tag = s.tagOf g.tag.slot →
          s.call g.tag.slot = some v → k ∉ v.offerees) → ∀ j, j ≠ i → t.slot j = s.slot j) ∧
        ∀ k v cr rv, g.mode ≠ .assigned → s.enrolled g.badge = some k → s.crew k = some cr → g.tag = s.tagOf g.tag.slot →
          s.call g.tag.slot = some v → k ∈ v.offerees → s.rungOf v = some rv →
          t.crew k = some { cr with offer := none } ∧ (v.offerees = [k] → Joins s t g.tag.slot) ∧
          (∃ w, t.call g.tag.slot = some w ∧ LosesOffer k (triesGivenBack rv v) v w) ∧
          ∀ j, j ≠ i → j ≠ g.tag.slot → t.slot j = s.slot j

/-- A turn that takes a crew from the offer of a lower class: the victim loses the offeree, gets a WITHDRAWN entry and, on a
SINGLE rung, its try back, and waits when nobody is left; the crew's pager is told of both calls, by the WITHDRAW of the one
and the PAGE of the other. -/
def Obligations.DispatchTurnPreEmptsALowerClass : Prop :=
  ∀ (s : State) (i j : CallSlotNo) (passed rest : List CallSlotNo) (c v : Call) (l : Ladder) (r rv : Rung) (k : CrewSlotNo)
    (cr : Crew),
    BindingOk s → DispatchOk s → BadgesOk s → s.resetLine = .released → s.plan.phase = .closed →
    s.disp.list = passed ++ i :: rest → (∀ m ∈ passed, PassedOver s m) →
    s.call i = some c → s.ladderOf c = some l → l.rungs[c.rung]? = some r → chosenFrom s c r c.triesUsed = [k] →
    s.crew k = some cr → cr.offer = some (s.tagOf j) → s.call j = some v → s.rungOf v = some rv →
    s.queue.entries.length ≤ 20 →
    ∃ t d, exec .dispatchTurn s = .next t ∧ t.call i = some { c with
        state := .offered, offerees := [k], triesUsed := c.triesUsed + 1,
        timer := { mode := .offer, count := r.offerTime, expiryPending := false } } ∧
      t.crew k = some { cr with offer := some (s.tagOf i) } ∧ t.call j = some d ∧ LosesOffer k (triesGivenBack rv v) v d ∧
      ShowsItsLoss s t j k v ∧ PagerTold s t j cr.badge v.cls .preEmpted ∧
      (∃ e ∈ t.queue.entries, e.pendingPage (s.tagOf i) cr.badge = true) ∧
      ((∀ e ∈ s.queue.entries, e.pendingPage (s.tagOf i) cr.badge = false) →
        pageEntry (s.tagOf i) cr.badge c c.rung r ∈ t.queue.entries) ∧
      PointTold t c ∧ i ∉ t.disp.list ∧ t.port = s.port ∧ KeepsRest s t ∧
      KeepsCalls s t (fun m => m = i ∨ m = j) ∧ KeepsCrews s t (· = k)

/-- A turn whose rungs choose nobody exhausts the ladder: the call is UNCLAIMED with its RETRY timer, and a STOP call sounds the
horn; the calls before it that cannot be served are passed over. Without a call that can be served, and in an open plan, no
turn is taken. -/
def Obligations.DispatchTurnExhaustsTheLadder : Prop :=
  (∀ (s : State) (i : CallSlotNo) (passed rest : List CallSlotNo) (c : Call) (l : Ladder) (r : Rung),
    BindingOk s → DispatchOk s → s.resetLine = .released → s.plan.phase = .closed →
    s.disp.list = passed ++ i :: rest → (∀ j ∈ passed, PassedOver s j) →
    s.call i = some c → s.ladderOf c = some l → c.rung < l.rungs.length → TurnReaches s c l l.rungs.length →
    l.rungs[l.rungs.length - 1]? = some r →
    ∃ t, exec .dispatchTurn s = .next t ∧
      t.call i = some { c with
        state := .unclaimed, rung := l.rungs.length - 1, triesUsed := r.tries,
        unclaimedRounds := min 15 (c.unclaimedRounds + 1), attention := c.attention ||| 0x08,
        timer := { mode := .retry, count := l.retry, expiryPending := false } } ∧
      i ∉ t.disp.list ∧ (c.cls = .stop → t.disp.silenced = false ∧ t.disp.horn = true) ∧
      (c.cls ≠ .stop → t.disp.silenced = s.disp.silenced ∧ t.disp.horn = s.disp.horn) ∧ t.port = s.port ∧
      KeepsRest s { t with disp := { t.disp with silenced := s.disp.silenced } } ∧ KeepsCalls s t (· = i) ∧
      KeepsCrews s t (fun _ => False)) ∧
  (∀ s : State, s.plan.phase ≠ .closed ∨ s.disp.list = [] → exec .dispatchTurn s = .next s) ∧
  ∀ s : State, s.resetLine = .released → s.plan.phase = .closed → (∀ i ∈ s.disp.list, PassedOver s i) →
    exec .dispatchTurn s = .next s

/-! ## The line and the Send Queue -/

/-- LINE IDLE and DOMINANT EDGE move the line state, FRAME SEND START takes the first entry with its destination, an
ARBITRATION LOSS lands it without an attempt, and the end of a frame that wants a receipt opens the receipt window, where no
echo is checked (the model's reading, log 40). A frame of another node that comes in the window does what it does elsewhere, and
then the attempt ends as with a bad receipt (the model's reading, log 43). An underdriven mismatch inside the arbitration field leaves the line receiving (the
model's reading, log 22). A command whose condition does not hold changes nothing (the model's choice, log 2), and a second
entry that R112 does not let stand coalesces at the landing by R113 (the model's reading, log 34). -/
def Obligations.LineIdleEdgeSendStartAndArbitrationLoss : Prop :=
  ∀ s : State, s.resetLine = .released →
    (∀ w, s.line.state = .busy w → (∀ f, w ≠ .sending f) → w ≠ .receiptWindow →
      exec .lineIdle s = .next (s.setLineState .idle)) ∧
    (s.line.state = .idle → exec .dominantEdge s = .next (s.setLineState (.busy .receiving))) ∧
    (s.line.state = .idle → s.queue.entries = [] → exec .frameSendStart s = .next s) ∧
    (∀ e q d, s.line.state = .idle → s.queue.entries = e :: q →
      (∀ p, e.content = .page p → RoutedTo s p.badge d) → (∀ w, e.content = .withdraw w → RoutedTo s w.badge d) →
      (∀ p x, e.content = .lamp p x → d = BitVec.ofNat 7 (16 + p.val)) →
      exec .frameSendStart s = .next
        ((s.setEntries ({ e with dest := some d, inFlight := true } :: q)).setLineState
          (.busy (.sending (entryFrame e d))))) ∧
    (∀ a e b d, (∃ f, s.line.state = .busy (.sending f)) → s.queue.entries = a ++ e :: b →
      (∀ x ∈ a, x.inFlight = false) → e.inFlight = true → e.dest = some d → d ≠ 0 →
      exec .frameSent s = .next (s.setLineState (.busy .receiptWindow))) ∧
    (s.line.state = .busy .receiptWindow →
      (∀ m, exec (.bitFault m) s = .next s ∧ exec (.arbitrationLoss m) s = .next s) ∧
      exec .receiptEchoMismatch s = .next s ∧ exec .dominantEdge s = .next s ∧
      ∀ c, c.wf = true → BringsAFrame c → ∃ (t u : State) (w : BusyWith),
        exec c (s.setLineState (.busy .receiving)) = .next t ∧ t.line.state = .busy w ∧
        exec .noReceipt (t.setLineState (.busy .receiptWindow)) = .next u ∧
        exec c s = .next (u.setLineState (.busy w))) ∧
    ∀ (f : Frame) (m : Mismatch), s.line.state = .busy (.sending f) →
      (m.kind = .overdriven → m.inArbitrationField = false → exec (.arbitrationLoss m) s = .next s) ∧
      ((m.kind = .overdriven ∧ m.inArbitrationField = true) ∨
        (m.kind = .underdriven ∧ s.line.settings.echo = .arbitrationLoss) →
        ∃ q throttled queueHigh, LandsAs s q throttled queueHigh ∧ exec (.arbitrationLoss m) s = .next
          ({ s with queue := { entries := q, throttled := throttled, queueHigh := queueHigh } }.setLineState
            (.busy (if m.inArbitrationField then .receiving else .waitingForIdle))))

/-- The frame of an entry carries its class, its kind, source 1, its destination, and receipt wanted unless it goes to
address 0; its bodies are those of 12.2. -/
def Obligations.EntryFramesCarryTheirFields : Prop :=
  ∀ (e : Entry) (d : Addr), ∃ f, entryFrame e d = f ∧ f.source = 1 ∧ f.dest = d ∧ (f.receiptWanted = true ↔ d ≠ 0) ∧
    f.length.toNat = f.body.length ∧ f.check = crc f.bits ∧
    (e.band = .stop → f.classCode = 0) ∧ (e.band = .urgent → f.classCode = 1) ∧ (e.band = .routine → f.classCode = 2) ∧
    (∀ p, e.content = .page p → f.kindCode = 8 ∧ f.body = [p.tag.byte, hiByte p.badge, loByte p.badge,
      byteOf (16 * tradeCode p.trade + pageModeCode p.mode), byteOf (p.zone.val + 1), originByte p.origin,
      byteOf p.rung]) ∧
    (∀ w, e.content = .withdraw w → f.kindCode = 9 ∧ f.body = [w.tag.byte, hiByte w.badge, loByte w.badge,
      byteOf (withdrawReasonCode w.reason)]) ∧
    ∀ p x, e.content = .lamp p x → f.kindCode = 10 ∧ f.body =
      [byteOf (16 * lampStateCode x.electrical + lampStateCode x.mechanical),
       byteOf (16 * lampStateCode x.hydraulic + lampStateCode x.crane)]

/-- A failed attempt: below the limit the entry goes to the tail of its band, or is removed where a newer entry supersedes it;
at the limit it is removed and its owner told, and a beacon that gave no receipt loses its flag; the throttled flag is compared
where the count has changed. NO ROOM is read from the code alone (the model's reading, log 23). -/
def Obligations.FailedAttemptsCountAndEndAtTheLimit : Prop :=
  ∀ (s : State) (a b : List Entry) (e : Entry) (c : Instr) (noReceipt : Bool) (after : BusyWith) (fault : Bool),
    LineOk s → s.queue.entries = a ++ e :: b → e.inFlight = true → FailsBy s c noReceipt after fault →
    (e.attempts + 1 < s.plan.attemptLimit → (∀ x ∈ a ++ b, ¬ Supersedes x e) → exec c s = .next
      { s with
        queue := { s.queue with entries := joinTail { e with attempts := e.attempts + 1, inFlight := false } (a ++ b) }
        line := { s.line with state := .busy after, sendFaults := if fault then min 255 (s.line.sendFaults + 1) else s.line.sendFaults } }) ∧
    (QueueOk s → ∃ before behind, before ++ behind = a ++ b ∧
      joinTail { e with attempts := e.attempts + 1, inFlight := false } (a ++ b) =
        before ++ { e with attempts := e.attempts + 1, inFlight := false } :: behind ∧
      (∀ x ∈ before, classRank e.band ≤ classRank x.band) ∧ ∀ x ∈ behind, classRank x.band < classRank e.band) ∧
    (e.attempts + 1 < s.plan.attemptLimit → (∃ x ∈ a ++ b, Supersedes x e) → ∃ throttled queueHigh,
      Compared s (a ++ b).length throttled queueHigh ∧ exec c s = .next { s with
        queue := { entries := a ++ b, throttled := throttled, queueHigh := queueHigh }
        line := { s.line with state := .busy after, sendFaults := if fault then min 255 (s.line.sendFaults + 1) else s.line.sendFaults } }) ∧
    (s.plan.attemptLimit ≤ e.attempts + 1 → ∃ t, exec c s = .next t ∧ t.port = s.port ∧ t.plan = s.plan ∧
      t.clock = s.clock ∧ t.pending = s.pending ∧ t.resetLine = s.resetLine ∧ ComparedAtEnd s t ∧
      (∃ flags : Vector Bool 16, t.line = { s.line with
          state := .busy after, answering := flags, sendFaults := if fault then min 255 (s.line.sendFaults + 1) else s.line.sendFaults } ∧
        ∀ z : Zone, flags[z] = true ↔ s.line.answering[z] = true ∧
          ¬ (noReceipt = true ∧ e.dest = some (Zone.beacon z) ∧ ∀ p x, e.content ≠ .lamp p x)) ∧
      (∀ p x, e.content = .lamp p x → t.queue.entries = a ++ b ∧ t.lampStale = s.lampStale.set p true ∧
        t.calls = s.calls ∧ t.roster = s.roster ∧ t.disp = s.disp) ∧
      (∀ w, e.content = .withdraw w → t.queue.entries = a ++ b ∧ t.lampStale = s.lampStale ∧ t.calls = s.calls ∧
        t.roster = s.roster ∧ t.disp = s.disp) ∧
      ∀ p, e.content = .page p →
        ((∃ x ∈ a ++ b, x.pendingPage p.tag p.badge = true) ∨
          (∀ k v, s.enrolled p.badge = some k → p.tag = s.tagOf p.tag.slot → s.call p.tag.slot = some v →
            k ∉ v.offerees) →
          t.queue.entries = a ++ b ∧ t.calls = s.calls ∧ t.roster = s.roster ∧ t.disp = s.disp) ∧
        ∀ k v cr, (∀ x ∈ a ++ b, x.pendingPage p.tag p.badge = false) → s.enrolled p.badge = some k →
          s.crew k = some cr → p.tag = s.tagOf p.tag.slot → s.call p.tag.slot = some v → k ∈ v.offerees → v.hold = none →
          (a ++ b).length < 24 →
          t.crew k = some { cr with offer := none } ∧ (∀ l, l ≠ k → t.crew l = s.crew l) ∧
          (v.offerees.filter (· ≠ k) = [] → Joins s t p.tag.slot ∧ t.call p.tag.slot = some { v with
            state := .waiting, offerees := [], timer := stopped v,
            history := lastEight (v.history ++ [{ crew := k, outcome := .undelivered }]) }) ∧
          (v.offerees.filter (· ≠ k) ≠ [] → t.call p.tag.slot = some { v with
            offerees := v.offerees.filter (· ≠ k),
            history := lastEight (v.history ++ [{ crew := k, outcome := .undelivered }]) }))

/-- A frame to address 0 sent to its end, and a good receipt other than NO ROOM in the receipt window, remove the entry; a
delivered LAMP clears its point's lamp-stale flag and makes no lamp update by that (the model's reading, log 39); the throttled
flag is compared at the new count. -/
def Obligations.DeliveredEntriesLeaveTheQueue : Prop :=
  ∀ (s : State) (a b : List Entry) (e : Entry) (d : Addr) (c : Instr), LineOk s → s.queue.entries = a ++ e :: b →
    e.inFlight = true → e.dest = some d →
    ((Sends s ∧ c = .frameSent ∧ d = 0) ∨
      (InReceiptWindow s ∧ ∃ r, c = .receiptTaken r ∧ r.good = true ∧ r.code ≠ 0x21)) →
    ∃ throttled queueHigh, Compared s (a ++ b).length throttled queueHigh ∧ exec c s = .next { s with
      queue := { entries := a ++ b, throttled := throttled, queueHigh := queueHigh }
      line := { s.line with state := .busy .frameOver }
      lampStale := match e.content with
        | .lamp p _ => s.lampStale.set p false
        | .page _ | .withdraw _ => s.lampStale }

/-- The receipt that the TF6448 drives ends at a mismatch with one send fault, and the hold monitor: a hold lands the entry in
flight and latches HOLD, its marks latch it again, 10 s makes the line STUCK, and the release makes it IDLE. The order of the marks of a hold is kept by holdMarks (the model's choice, log
7), and a second entry that R112 does not let stand coalesces at the landing by R113 (the model's reading, log 34). -/
def Obligations.ReceiptMismatchAndTheHoldMonitor : Prop :=
  ∀ s : State, s.resetLine = .released →
    (∀ bytes, s.line.state = .busy (.drivingReceipt bytes) → exec .receiptEchoMismatch s = .next { s with line :=
      { s.line with state := .busy .waitingForIdle, sendFaults := min 255 (s.line.sendFaults + 1) } }) ∧
    (s.line.state = .idle ∨ (∃ w, s.line.state = .busy w) → ∃ q throttled queueHigh,
      LandsAs s q throttled queueHigh ∧ exec .lineHold s = .next { s with
        queue := { entries := q, throttled := throttled, queueHigh := queueHigh }
        line := { s.line with state := .held, holdMarks := 0, lineEvent := { latched := true, event := .hold } } }) ∧
    (s.line.state = .held ∧ s.line.holdMarks < 2 ∨ s.line.state = .stuck → exec .lineHoldRepeat s = .next { s with line :=
      { s.line with holdMarks := s.line.holdMarks + 1, lineEvent := { latched := true, event := .hold } } }) ∧
    (s.line.state = .held → exec .lineStuck s = .next { s with line :=
      { s.line with state := .stuck, holdMarks := max 2 s.line.holdMarks, lineStuck := true } }) ∧
    (s.line.state = .held ∨ s.line.state = .stuck → exec .lineClear s = .next { s with line :=
      { s.line with state := .idle, holdMarks := 0, lineEvent := { latched := true, event := .clear } } }) ∧
    (s.line.state = .silent → exec .lineHold s = .next s ∧ exec .lineHoldRepeat s = .next s ∧ exec .lineStuck s = .next s ∧
      exec .lineClear s = .next s)

/-! ## The laws that every step keeps -/

/-- Every step keeps the Send Queue at 24 entries or fewer in class order, at most one pending PAGE for a pair and one pending
LAMP for a point (by the model's reading of a landing, log 34), at most one entry in flight and only while the TF6448 sends or
awaits its receipt, the attention queue equal to the calls whose attention set is not empty, and the counts in their ranges. -/
def Obligations.StepKeepsTheQueuesAndTheRanges : Prop :=
  (∀ s t : State, QueueOk s → step s = .next t → QueueOk t) ∧
    (∀ s t : State, LineOk s ∧ PairsOk s → step s = .next t → PairsOk t) ∧ (∀ s t : State, LineOk s → step s = .next t → LineOk t) ∧
    (∀ s t : State, AttentionOk s → step s = .next t → AttentionOk t) ∧
    ∀ s t : State, RangesOk s → step s = .next t → RangesOk t

/-- Every step keeps the records in agreement: badges distinct, the dispatch list equal to the unheld WAITING calls, offers and
holdings the same on both records, and the horn as the calls and the silenced flag say. -/
def Obligations.StepKeepsTheRecordsInAgreement : Prop :=
  ∀ s t : State, QueueOk s ∧ BadgesOk s ∧ DispatchOk s ∧ BindingOk s ∧ HornOk s → step s = .next t →
    QueueOk t ∧ BadgesOk t ∧ DispatchOk t ∧ BindingOk t ∧ HornOk t

/-- A closed plan keeps its contents through every command but POWER_ON, whichever command it is. -/
def Obligations.ClosedPlanKeepsItsContents : Prop :=
  ∀ (c : Instr) (s t : State), s.plan.phase = .closed → (∀ phase, c ≠ .powerOn phase) → exec c s = .next t →
    SameContents t.plan s.plan
end

