-- ==== Sys2Proof/Laws/Checks.lean ====
section
/-! SUPPORT. Bool checks of the laws and of the premises, each proved to give its law: they decide a law at a concrete state. -/

namespace Sys2Proof.Machine

/-- Every call of the table meets a test. -/
def everyCall (s : State) (p : CallSlotNo → Call → Bool) : Bool := callSlots.all (fun i => (s.call i).all (p i))

/-- Every crew of the roster meets a test. -/
def everyCrew (s : State) (p : CrewSlotNo → Crew → Bool) : Bool := crewSlots.all (fun k => (s.crew k).all (p k))

theorem everyCall_spec {s : State} {p : CallSlotNo → Call → Bool} (h : everyCall s p = true) (i : CallSlotNo) (c : Call)
    (hc : s.call i = some c) : p i c = true := by
  have := List.all_eq_true.mp h i (List.mem_finRange i)
  simpa [hc] using this

theorem everyCrew_spec {s : State} {p : CrewSlotNo → Crew → Bool} (h : everyCrew s p = true) (k : CrewSlotNo) (c : Crew)
    (hc : s.crew k = some c) : p k c = true := by
  have := List.all_eq_true.mp h k (List.mem_finRange k)
  simpa [hc] using this

def callOkCheck (c : Call) : Bool :=
  (c.offerees.isEmpty == (c.state != .offered)) && decide c.offerees.Nodup && (c.state != .offered || c.hold.isNone) &&
    (c.holder.isSome == (c.state == .accepted || c.state == .attending)) &&
    ((c.timer.mode == .offer) == (c.state == .offered)) && ((c.timer.mode == .retry) == (c.state == .unclaimed)) &&
    (c.timer.mode != .travel || c.state == .accepted)

theorem callOk_of_check {c : Call} (h : callOkCheck c = true) : CallOk c := by
  simp only [callOkCheck, Bool.and_eq_true, decide_eq_true_eq] at h
  obtain ⟨⟨⟨⟨⟨⟨h1, h2⟩, h3⟩, h4⟩, h5⟩, h6⟩, h7⟩ := h
  refine ⟨?_, h2, ?_, ?_, ?_, ?_, ?_⟩
  · cases ho : c.offerees <;> cases hs : c.state <;> simp_all
  · intro hs; cases hh : c.hold <;> simp_all
  · cases hh : c.holder <;> cases hs : c.state <;> simp_all
  · cases ht : c.timer.mode <;> cases hs : c.state <;> simp_all
  · cases ht : c.timer.mode <;> cases hs : c.state <;> simp_all
  · intro ht; cases hs : c.state <;> simp_all

/-- A crew's offer and its load agree with the calls. -/
def crewBoundCheck (s : State) (k : CrewSlotNo) (cr : Crew) : Bool :=
  (match cr.offer with
    | none => true
    | some t => t == s.tagOf t.slot && s.isOfferee t.slot k) &&
  callSlots.all (fun i => !s.isOfferee i k || cr.offer == some (s.tagOf i)) && cr.load == (s.heldCalls k).length

def bindingCheck (s : State) : Bool :=
  everyCall s (fun _ c => callOkCheck c && c.offerees.all (fun k => (s.crew k).isSome) &&
    c.holder.all (fun k => (s.crew k).isSome)) && everyCrew s (crewBoundCheck s)

theorem isOfferee_iff (s : State) (i : CallSlotNo) (k : CrewSlotNo) :
    s.isOfferee i k = true ↔ ∃ c, s.call i = some c ∧ k ∈ c.offerees := by
  unfold State.isOfferee
  cases h : s.call i <;> simp

theorem bindingOk_of_check {s : State} (h : bindingCheck s = true) : BindingOk s := by
  simp only [bindingCheck, Bool.and_eq_true] at h
  obtain ⟨h1, h2⟩ := h
  refine ⟨fun i c hc => ?_, fun k cr hk => ?_⟩
  · have := everyCall_spec h1 i c hc
    simp only [Bool.and_eq_true, List.all_eq_true] at this
    obtain ⟨⟨a, b⟩, d⟩ := this
    exact ⟨callOk_of_check a, b, fun k hk => by simpa [hk] using d⟩
  · have := everyCrew_spec h2 k cr hk
    simp only [crewBoundCheck, Bool.and_eq_true, List.all_eq_true, beq_iff_eq, Bool.or_eq_true, Bool.not_eq_true'] at this
    obtain ⟨⟨a, b⟩, d⟩ := this
    refine ⟨fun t => ⟨fun ht => ?_, fun ⟨c, e, hc, hm⟩ => ?_⟩, d⟩
    · simp only [ht, Bool.and_eq_true, beq_iff_eq] at a
      obtain ⟨c, hc, hm⟩ := (isOfferee_iff s t.slot k).mp a.2
      exact ⟨c, a.1, hc, hm⟩
    · rcases b t.slot (List.mem_finRange _) with f | f
      · rw [(isOfferee_iff s t.slot k).mpr ⟨c, hc, hm⟩] at f
        exact absurd f (by decide)
      · rw [f, ← e]

/-- A list of slots falls in class rank. -/
def fallsCheck {α : Type} (rank : α → Nat) : List α → Bool
  | [] => true
  | a :: l => l.all (fun b => rank b ≤ rank a) && fallsCheck rank l

theorem falls_of_check {α : Type} {rank : α → Nat} {l : List α} (h : fallsCheck rank l = true) :
    l.Pairwise (fun a b => rank b ≤ rank a) := by
  induction l with
  | nil => exact List.Pairwise.nil
  | cons a l ih =>
    simp only [fallsCheck, Bool.and_eq_true, List.all_eq_true, decide_eq_true_eq] at h
    exact List.pairwise_cons.mpr ⟨h.1, ih h.2⟩

def dispatchCheck (s : State) : Bool :=
  decide s.disp.list.Nodup && fallsCheck s.bandOf s.disp.list &&
    everyCall s (fun i c => s.disp.list.contains i == (c.state == .waiting && c.hold.isNone)) &&
    s.disp.list.all (fun i => (s.call i).isSome)

theorem dispatchOk_of_check {s : State} (h : dispatchCheck s = true) : DispatchOk s := by
  simp only [dispatchCheck, Bool.and_eq_true, List.all_eq_true, decide_eq_true_eq] at h
  obtain ⟨⟨⟨h1, h2⟩, h3⟩, h4⟩ := h
  refine ⟨h1, fun i => ⟨fun hi => ?_, fun ⟨c, hc, hs, hh⟩ => ?_⟩, falls_of_check h2⟩
  · obtain ⟨c, hc⟩ := Option.isSome_iff_exists.mp (h4 i hi)
    have := everyCall_spec h3 i c hc
    simp [hi] at this
    exact ⟨c, hc, this⟩
  · have := everyCall_spec h3 i c hc
    simpa [hs, hh] using this

def badgesCheck (s : State) : Bool :=
  everyCrew s (fun k c => badgeValid c.badge && everyCrew s (fun l d => k == l || c.badge != d.badge))

theorem badgesOk_of_check {s : State} (h : badgesCheck s = true) : BadgesOk s := by
  refine ⟨fun k c hc => ?_, fun k l c d hc hd e => ?_⟩
  · have := everyCrew_spec h k c hc
    simp [badgeValid] at this
    exact this.1
  · have := everyCrew_spec h k c hc
    simp only [Bool.and_eq_true] at this
    have := everyCrew_spec this.2 l d hd
    simpa [e] using this

def rangesCheck (s : State) : Bool :=
  everyCall s (fun _ c => 1 ≤ c.raiseCount && c.raiseCount ≤ 15 && c.unclaimedRounds ≤ 15 && c.age ≤ 255 &&
    c.history.length ≤ 8) &&
  everyCrew s (fun _ c => c.sightAge ≤ 255 && c.idle ≤ 255) && s.calls.tableFull.count ≤ 255 &&
  s.clock.minuteCount ≤ 59 && s.line.receiveErrors ≤ 255 && s.line.sendFaults ≤ 255

theorem rangesOk_of_check {s : State} (h : rangesCheck s = true) : RangesOk s := by
  simp only [rangesCheck, Bool.and_eq_true, decide_eq_true_eq] at h
  obtain ⟨⟨⟨⟨⟨h1, h2⟩, h3⟩, h4⟩, h5⟩, h6⟩ := h
  refine ⟨fun i c hc => ?_, fun k c hc => ?_, h3, h4, h5, h6⟩
  · have := everyCall_spec h1 i c hc
    simpa [and_assoc] using this
  · have := everyCrew_spec h2 k c hc
    simpa using this

def attentionCheck (s : State) : Bool :=
  decide s.calls.attentionQueue.Nodup && everyCall s (fun i c => s.calls.attentionQueue.contains i == (c.attention != 0)) &&
    s.calls.attentionQueue.all (fun i => (s.call i).isSome)

theorem attentionOk_of_check {s : State} (h : attentionCheck s = true) : AttentionOk s := by
  simp only [attentionCheck, Bool.and_eq_true, List.all_eq_true, decide_eq_true_eq] at h
  obtain ⟨⟨h1, h3⟩, h4⟩ := h
  refine ⟨h1, fun i => ⟨fun hi => ?_, fun ⟨c, hc, ha⟩ => ?_⟩⟩
  · obtain ⟨c, hc⟩ := Option.isSome_iff_exists.mp (h4 i hi)
    have := everyCall_spec h3 i c hc
    simp [hi] at this
    exact ⟨c, hc, this⟩
  · have h := everyCall_spec h3 i c hc
    have hne : (c.attention != 0) = true := by simpa using ha
    rw [hne] at h
    simpa using h

def hornCheck (s : State) : Bool := s.disp.horn == (s.hornCondition && !s.disp.silenced)

theorem hornCondition_iff (s : State) :
    s.hornCondition = true ↔ ∃ i c, s.call i = some c ∧ c.state = .unclaimed ∧ c.hold = none ∧ c.cls = .stop := by
  unfold State.hornCondition
  rw [List.any_eq_true]
  constructor
  · rintro ⟨i, _, h⟩
    cases hc : s.call i with
    | none => simp [hc] at h
    | some c => simp [hc, Call.sounds] at h; exact ⟨i, c, hc, h.1.1, h.1.2, h.2⟩
  · rintro ⟨i, c, hc, h1, h2, h3⟩
    exact ⟨i, List.mem_finRange i, by simp [hc, Call.sounds, h1, h2, h3]⟩

/-- The horn output after its evaluation is right. -/
theorem hornRight_evalHorn (s : State) : HornRight s.evalHorn := by
  show (s.hornCondition && !s.disp.silenced) = true ↔ _
  rw [Bool.and_eq_true, hornCondition_iff]
  simp only [Bool.not_eq_true']
  exact Iff.rfl

theorem hornRight_of_check {s : State} (h : hornCheck s = true) : HornRight s := by
  have e : s.disp.horn = (s.hornCondition && !s.disp.silenced) := by simpa [hornCheck] using h
  unfold HornRight
  rw [e, Bool.and_eq_true, hornCondition_iff]
  simp

def queueCheck (s : State) : Bool :=
  s.queue.entries.length ≤ 24 && fallsCheck (fun e : Entry => classRank e.band) s.queue.entries

theorem queueOk_of_check {s : State} (h : queueCheck s = true) : QueueOk s := by
  simp only [queueCheck, Bool.and_eq_true, decide_eq_true_eq] at h
  exact ⟨h.1, falls_of_check h.2⟩

/-- At most one element of a list meets a test when no element that meets it has one behind it. -/
theorem filter_length_le_one {α : Type} {p : α → Bool} {l : List α}
    (h : l.Pairwise (fun a b => p a = true → p b = false)) : (l.filter p).length ≤ 1 := by
  induction l with
  | nil => simp
  | cons a l ih =>
    obtain ⟨h1, h2⟩ := List.pairwise_cons.mp h
    by_cases ha : p a = true
    · rw [List.filter_cons_of_pos ha, List.filter_eq_nil_iff.mpr (fun b hb => by simp [h1 b hb ha])]
      simp
    · rw [List.filter_cons_of_neg ha]
      exact ih h2

def pairsCheck : List Entry → Bool
  | [] => true
  | e :: q => (e.inFlight || !q.any e.twin) && pairsCheck q

theorem pairsOk_of_check {s : State} (h : pairsCheck s.queue.entries = true) : PairsOk s := by
  have hp : ∀ {q : List Entry}, pairsCheck q = true → q.Pairwise (fun a b => a.inFlight = false → a.twin b = false) := by
    intro q
    induction q with
    | nil => exact fun _ => .nil
    | cons e q ih =>
      intro h
      simp only [pairsCheck, Bool.and_eq_true, Bool.or_eq_true, Bool.not_eq_true', List.any_eq_false] at h
      refine List.pairwise_cons.mpr ⟨fun x hx hf => ?_, ih h.2⟩
      rcases h.1 with h1 | h1
      · rw [h1] at hf; exact absurd hf (by decide)
      · simpa using h1 x hx
  refine ⟨fun tag b => filter_length_le_one ((hp h).imp (fun {x y} hxy hx => ?_)),
    fun p => filter_length_le_one ((hp h).imp (fun {x y} hxy hx => ?_))⟩
  · simp only [Entry.pendingPage, Entry.pending, Bool.and_eq_true, Bool.not_eq_true'] at hx
    have := hxy hx.1
    cases hc : x.content with
    | page g =>
      simp only [Entry.isPage, hc, Bool.and_eq_true, beq_iff_eq] at hx
      simpa [Entry.twin, hc, hx.2.1, hx.2.2] using this
    | withdraw w => simp [Entry.isPage, hc] at hx
    | lamp q l => simp [Entry.isPage, hc] at hx
  · simp only [Entry.pendingLamp, Entry.pending, Bool.and_eq_true, Bool.not_eq_true'] at hx
    have := hxy hx.1
    cases hc : x.content with
    | page g => simp [Entry.isLamp, hc] at hx
    | withdraw w => simp [Entry.isLamp, hc] at hx
    | lamp q l =>
      simp only [Entry.isLamp, hc, beq_iff_eq] at hx
      simpa [Entry.twin, hc, hx.2] using this

/-! ## Notices -/

theorem firstAttention_isSome (s : State) (cls : CallClass) :
    (s.firstAttention cls).isSome = true ↔ ∃ i ∈ s.calls.attentionQueue, ∃ c, s.call i = some c ∧ c.cls = cls := by
  unfold State.firstAttention
  rw [List.find?_isSome]
  refine exists_congr (fun i => and_congr_right (fun _ => ?_))
  cases s.call i <;> simp

/-- The model's test of a pending notice says what the rule says. -/
theorem holds_iff (s : State) (n : NoticeSource) : s.noticePending n = true ↔ Holds s n := by
  cases n <;> first | exact Iff.rfl | exact firstAttention_isSome s _

theorem enabled_iff (s : State) (n : NoticeSource) : s.unmasked n = true ↔ Enabled s n := by
  cases n <;> simp [State.unmasked, NoticeSource.maskBit, Enabled]

end Sys2Proof.Machine
end

