-- ==== Sys2Proof/Laws/State.lean ====
section
/-! SUPPORT. One lemma for each field of each update of the state, true by unfolding, and the reads of one slot, crew, zone or point after a write of another. -/

namespace Sys2Proof.Machine

/-! ### State.setSlot -/

@[simp] theorem setSlot_calls (s : State) (i : CallSlotNo) (x : CallSlot) : (s.setSlot i x).calls = { s.calls with slots := s.calls.slots.set i x } := rfl
@[simp] theorem setSlot_roster (s : State) (i : CallSlotNo) (x : CallSlot) : (s.setSlot i x).roster = s.roster := rfl
@[simp] theorem setSlot_plan (s : State) (i : CallSlotNo) (x : CallSlot) : (s.setSlot i x).plan = s.plan := rfl
@[simp] theorem setSlot_disp (s : State) (i : CallSlotNo) (x : CallSlot) : (s.setSlot i x).disp = s.disp := rfl
@[simp] theorem setSlot_clock (s : State) (i : CallSlotNo) (x : CallSlot) : (s.setSlot i x).clock = s.clock := rfl
@[simp] theorem setSlot_queue (s : State) (i : CallSlotNo) (x : CallSlot) : (s.setSlot i x).queue = s.queue := rfl
@[simp] theorem setSlot_line (s : State) (i : CallSlotNo) (x : CallSlot) : (s.setSlot i x).line = s.line := rfl
@[simp] theorem setSlot_lampStale (s : State) (i : CallSlotNo) (x : CallSlot) : (s.setSlot i x).lampStale = s.lampStale := rfl
@[simp] theorem setSlot_port (s : State) (i : CallSlotNo) (x : CallSlot) : (s.setSlot i x).port = s.port := rfl
@[simp] theorem setSlot_resetLine (s : State) (i : CallSlotNo) (x : CallSlot) : (s.setSlot i x).resetLine = s.resetLine := rfl
@[simp] theorem setSlot_pending (s : State) (i : CallSlotNo) (x : CallSlot) : (s.setSlot i x).pending = s.pending := rfl

/-! ### State.setAttentionQueue -/

@[simp] theorem setAttentionQueue_calls (s : State) (q : List CallSlotNo) : (s.setAttentionQueue q).calls = { s.calls with attentionQueue := q } := rfl
@[simp] theorem setAttentionQueue_roster (s : State) (q : List CallSlotNo) : (s.setAttentionQueue q).roster = s.roster := rfl
@[simp] theorem setAttentionQueue_plan (s : State) (q : List CallSlotNo) : (s.setAttentionQueue q).plan = s.plan := rfl
@[simp] theorem setAttentionQueue_disp (s : State) (q : List CallSlotNo) : (s.setAttentionQueue q).disp = s.disp := rfl
@[simp] theorem setAttentionQueue_clock (s : State) (q : List CallSlotNo) : (s.setAttentionQueue q).clock = s.clock := rfl
@[simp] theorem setAttentionQueue_queue (s : State) (q : List CallSlotNo) : (s.setAttentionQueue q).queue = s.queue := rfl
@[simp] theorem setAttentionQueue_line (s : State) (q : List CallSlotNo) : (s.setAttentionQueue q).line = s.line := rfl
@[simp] theorem setAttentionQueue_lampStale (s : State) (q : List CallSlotNo) : (s.setAttentionQueue q).lampStale = s.lampStale := rfl
@[simp] theorem setAttentionQueue_port (s : State) (q : List CallSlotNo) : (s.setAttentionQueue q).port = s.port := rfl
@[simp] theorem setAttentionQueue_resetLine (s : State) (q : List CallSlotNo) : (s.setAttentionQueue q).resetLine = s.resetLine := rfl
@[simp] theorem setAttentionQueue_pending (s : State) (q : List CallSlotNo) : (s.setAttentionQueue q).pending = s.pending := rfl

/-! ### State.setCrew -/

@[simp] theorem setCrew_calls (s : State) (k : CrewSlotNo) (x : Option Crew) : (s.setCrew k x).calls = s.calls := rfl
@[simp] theorem setCrew_roster (s : State) (k : CrewSlotNo) (x : Option Crew) : (s.setCrew k x).roster = { s.roster with crews := s.roster.crews.set k x } := rfl
@[simp] theorem setCrew_plan (s : State) (k : CrewSlotNo) (x : Option Crew) : (s.setCrew k x).plan = s.plan := rfl
@[simp] theorem setCrew_disp (s : State) (k : CrewSlotNo) (x : Option Crew) : (s.setCrew k x).disp = s.disp := rfl
@[simp] theorem setCrew_clock (s : State) (k : CrewSlotNo) (x : Option Crew) : (s.setCrew k x).clock = s.clock := rfl
@[simp] theorem setCrew_queue (s : State) (k : CrewSlotNo) (x : Option Crew) : (s.setCrew k x).queue = s.queue := rfl
@[simp] theorem setCrew_line (s : State) (k : CrewSlotNo) (x : Option Crew) : (s.setCrew k x).line = s.line := rfl
@[simp] theorem setCrew_lampStale (s : State) (k : CrewSlotNo) (x : Option Crew) : (s.setCrew k x).lampStale = s.lampStale := rfl
@[simp] theorem setCrew_port (s : State) (k : CrewSlotNo) (x : Option Crew) : (s.setCrew k x).port = s.port := rfl
@[simp] theorem setCrew_resetLine (s : State) (k : CrewSlotNo) (x : Option Crew) : (s.setCrew k x).resetLine = s.resetLine := rfl
@[simp] theorem setCrew_pending (s : State) (k : CrewSlotNo) (x : Option Crew) : (s.setCrew k x).pending = s.pending := rfl

/-! ### State.setWalk -/

@[simp] theorem setWalk_calls (s : State) (w : Walk) : (s.setWalk w).calls = s.calls := rfl
@[simp] theorem setWalk_roster (s : State) (w : Walk) : (s.setWalk w).roster = { s.roster with walk := w } := rfl
@[simp] theorem setWalk_plan (s : State) (w : Walk) : (s.setWalk w).plan = s.plan := rfl
@[simp] theorem setWalk_disp (s : State) (w : Walk) : (s.setWalk w).disp = s.disp := rfl
@[simp] theorem setWalk_clock (s : State) (w : Walk) : (s.setWalk w).clock = s.clock := rfl
@[simp] theorem setWalk_queue (s : State) (w : Walk) : (s.setWalk w).queue = s.queue := rfl
@[simp] theorem setWalk_line (s : State) (w : Walk) : (s.setWalk w).line = s.line := rfl
@[simp] theorem setWalk_lampStale (s : State) (w : Walk) : (s.setWalk w).lampStale = s.lampStale := rfl
@[simp] theorem setWalk_port (s : State) (w : Walk) : (s.setWalk w).port = s.port := rfl
@[simp] theorem setWalk_resetLine (s : State) (w : Walk) : (s.setWalk w).resetLine = s.resetLine := rfl
@[simp] theorem setWalk_pending (s : State) (w : Walk) : (s.setWalk w).pending = s.pending := rfl

/-! ### State.setDispatchList -/

@[simp] theorem setDispatchList_calls (s : State) (l : List CallSlotNo) : (s.setDispatchList l).calls = s.calls := rfl
@[simp] theorem setDispatchList_roster (s : State) (l : List CallSlotNo) : (s.setDispatchList l).roster = s.roster := rfl
@[simp] theorem setDispatchList_plan (s : State) (l : List CallSlotNo) : (s.setDispatchList l).plan = s.plan := rfl
@[simp] theorem setDispatchList_disp (s : State) (l : List CallSlotNo) : (s.setDispatchList l).disp = { s.disp with list := l } := rfl
@[simp] theorem setDispatchList_clock (s : State) (l : List CallSlotNo) : (s.setDispatchList l).clock = s.clock := rfl
@[simp] theorem setDispatchList_queue (s : State) (l : List CallSlotNo) : (s.setDispatchList l).queue = s.queue := rfl
@[simp] theorem setDispatchList_line (s : State) (l : List CallSlotNo) : (s.setDispatchList l).line = s.line := rfl
@[simp] theorem setDispatchList_lampStale (s : State) (l : List CallSlotNo) : (s.setDispatchList l).lampStale = s.lampStale := rfl
@[simp] theorem setDispatchList_port (s : State) (l : List CallSlotNo) : (s.setDispatchList l).port = s.port := rfl
@[simp] theorem setDispatchList_resetLine (s : State) (l : List CallSlotNo) : (s.setDispatchList l).resetLine = s.resetLine := rfl
@[simp] theorem setDispatchList_pending (s : State) (l : List CallSlotNo) : (s.setDispatchList l).pending = s.pending := rfl

/-! ### State.setEntries -/

@[simp] theorem setEntries_calls (s : State) (q : List Entry) : (s.setEntries q).calls = s.calls := rfl
@[simp] theorem setEntries_roster (s : State) (q : List Entry) : (s.setEntries q).roster = s.roster := rfl
@[simp] theorem setEntries_plan (s : State) (q : List Entry) : (s.setEntries q).plan = s.plan := rfl
@[simp] theorem setEntries_disp (s : State) (q : List Entry) : (s.setEntries q).disp = s.disp := rfl
@[simp] theorem setEntries_clock (s : State) (q : List Entry) : (s.setEntries q).clock = s.clock := rfl
@[simp] theorem setEntries_queue (s : State) (q : List Entry) : (s.setEntries q).queue = { s.queue with entries := q } := rfl
@[simp] theorem setEntries_line (s : State) (q : List Entry) : (s.setEntries q).line = s.line := rfl
@[simp] theorem setEntries_lampStale (s : State) (q : List Entry) : (s.setEntries q).lampStale = s.lampStale := rfl
@[simp] theorem setEntries_port (s : State) (q : List Entry) : (s.setEntries q).port = s.port := rfl
@[simp] theorem setEntries_resetLine (s : State) (q : List Entry) : (s.setEntries q).resetLine = s.resetLine := rfl
@[simp] theorem setEntries_pending (s : State) (q : List Entry) : (s.setEntries q).pending = s.pending := rfl

/-! ### State.setLampStale -/

@[simp] theorem setLampStale_calls (s : State) (p : Point) (b : Bool) : (s.setLampStale p b).calls = s.calls := rfl
@[simp] theorem setLampStale_roster (s : State) (p : Point) (b : Bool) : (s.setLampStale p b).roster = s.roster := rfl
@[simp] theorem setLampStale_plan (s : State) (p : Point) (b : Bool) : (s.setLampStale p b).plan = s.plan := rfl
@[simp] theorem setLampStale_disp (s : State) (p : Point) (b : Bool) : (s.setLampStale p b).disp = s.disp := rfl
@[simp] theorem setLampStale_clock (s : State) (p : Point) (b : Bool) : (s.setLampStale p b).clock = s.clock := rfl
@[simp] theorem setLampStale_queue (s : State) (p : Point) (b : Bool) : (s.setLampStale p b).queue = s.queue := rfl
@[simp] theorem setLampStale_line (s : State) (p : Point) (b : Bool) : (s.setLampStale p b).line = s.line := rfl
@[simp] theorem setLampStale_lampStale (s : State) (p : Point) (b : Bool) : (s.setLampStale p b).lampStale = s.lampStale.set p b := rfl
@[simp] theorem setLampStale_port (s : State) (p : Point) (b : Bool) : (s.setLampStale p b).port = s.port := rfl
@[simp] theorem setLampStale_resetLine (s : State) (p : Point) (b : Bool) : (s.setLampStale p b).resetLine = s.resetLine := rfl
@[simp] theorem setLampStale_pending (s : State) (p : Point) (b : Bool) : (s.setLampStale p b).pending = s.pending := rfl

/-! ### State.setAnswering -/

@[simp] theorem setAnswering_calls (s : State) (z : Zone) (b : Bool) : (s.setAnswering z b).calls = s.calls := rfl
@[simp] theorem setAnswering_roster (s : State) (z : Zone) (b : Bool) : (s.setAnswering z b).roster = s.roster := rfl
@[simp] theorem setAnswering_plan (s : State) (z : Zone) (b : Bool) : (s.setAnswering z b).plan = s.plan := rfl
@[simp] theorem setAnswering_disp (s : State) (z : Zone) (b : Bool) : (s.setAnswering z b).disp = s.disp := rfl
@[simp] theorem setAnswering_clock (s : State) (z : Zone) (b : Bool) : (s.setAnswering z b).clock = s.clock := rfl
@[simp] theorem setAnswering_queue (s : State) (z : Zone) (b : Bool) : (s.setAnswering z b).queue = s.queue := rfl
@[simp] theorem setAnswering_line (s : State) (z : Zone) (b : Bool) : (s.setAnswering z b).line = { s.line with answering := s.line.answering.set z b } := rfl
@[simp] theorem setAnswering_lampStale (s : State) (z : Zone) (b : Bool) : (s.setAnswering z b).lampStale = s.lampStale := rfl
@[simp] theorem setAnswering_port (s : State) (z : Zone) (b : Bool) : (s.setAnswering z b).port = s.port := rfl
@[simp] theorem setAnswering_resetLine (s : State) (z : Zone) (b : Bool) : (s.setAnswering z b).resetLine = s.resetLine := rfl
@[simp] theorem setAnswering_pending (s : State) (z : Zone) (b : Bool) : (s.setAnswering z b).pending = s.pending := rfl

/-! ### State.setLineState -/

@[simp] theorem setLineState_calls (s : State) (l : LineState) : (s.setLineState l).calls = s.calls := rfl
@[simp] theorem setLineState_roster (s : State) (l : LineState) : (s.setLineState l).roster = s.roster := rfl
@[simp] theorem setLineState_plan (s : State) (l : LineState) : (s.setLineState l).plan = s.plan := rfl
@[simp] theorem setLineState_disp (s : State) (l : LineState) : (s.setLineState l).disp = s.disp := rfl
@[simp] theorem setLineState_clock (s : State) (l : LineState) : (s.setLineState l).clock = s.clock := rfl
@[simp] theorem setLineState_queue (s : State) (l : LineState) : (s.setLineState l).queue = s.queue := rfl
@[simp] theorem setLineState_line (s : State) (l : LineState) : (s.setLineState l).line = { s.line with state := l } := rfl
@[simp] theorem setLineState_lampStale (s : State) (l : LineState) : (s.setLineState l).lampStale = s.lampStale := rfl
@[simp] theorem setLineState_port (s : State) (l : LineState) : (s.setLineState l).port = s.port := rfl
@[simp] theorem setLineState_resetLine (s : State) (l : LineState) : (s.setLineState l).resetLine = s.resetLine := rfl
@[simp] theorem setLineState_pending (s : State) (l : LineState) : (s.setLineState l).pending = s.pending := rfl

/-! ### State.countReceiveError -/

@[simp] theorem countReceiveError_calls (s : State) : s.countReceiveError.calls = s.calls := rfl
@[simp] theorem countReceiveError_roster (s : State) : s.countReceiveError.roster = s.roster := rfl
@[simp] theorem countReceiveError_plan (s : State) : s.countReceiveError.plan = s.plan := rfl
@[simp] theorem countReceiveError_disp (s : State) : s.countReceiveError.disp = s.disp := rfl
@[simp] theorem countReceiveError_clock (s : State) : s.countReceiveError.clock = s.clock := rfl
@[simp] theorem countReceiveError_queue (s : State) : s.countReceiveError.queue = s.queue := rfl
@[simp] theorem countReceiveError_line (s : State) : s.countReceiveError.line = { s.line with receiveErrors := saturate Config.errorCountLimit s.line.receiveErrors } := rfl
@[simp] theorem countReceiveError_lampStale (s : State) : s.countReceiveError.lampStale = s.lampStale := rfl
@[simp] theorem countReceiveError_port (s : State) : s.countReceiveError.port = s.port := rfl
@[simp] theorem countReceiveError_resetLine (s : State) : s.countReceiveError.resetLine = s.resetLine := rfl
@[simp] theorem countReceiveError_pending (s : State) : s.countReceiveError.pending = s.pending := rfl

/-! ### State.countSendFault -/

@[simp] theorem countSendFault_calls (s : State) : s.countSendFault.calls = s.calls := rfl
@[simp] theorem countSendFault_roster (s : State) : s.countSendFault.roster = s.roster := rfl
@[simp] theorem countSendFault_plan (s : State) : s.countSendFault.plan = s.plan := rfl
@[simp] theorem countSendFault_disp (s : State) : s.countSendFault.disp = s.disp := rfl
@[simp] theorem countSendFault_clock (s : State) : s.countSendFault.clock = s.clock := rfl
@[simp] theorem countSendFault_queue (s : State) : s.countSendFault.queue = s.queue := rfl
@[simp] theorem countSendFault_line (s : State) : s.countSendFault.line = { s.line with sendFaults := saturate Config.errorCountLimit s.line.sendFaults } := rfl
@[simp] theorem countSendFault_lampStale (s : State) : s.countSendFault.lampStale = s.lampStale := rfl
@[simp] theorem countSendFault_port (s : State) : s.countSendFault.port = s.port := rfl
@[simp] theorem countSendFault_resetLine (s : State) : s.countSendFault.resetLine = s.resetLine := rfl
@[simp] theorem countSendFault_pending (s : State) : s.countSendFault.pending = s.pending := rfl

/-! ### State.latchLineEvent -/

@[simp] theorem latchLineEvent_calls (s : State) (e : LineEvent) : (s.latchLineEvent e).calls = s.calls := rfl
@[simp] theorem latchLineEvent_roster (s : State) (e : LineEvent) : (s.latchLineEvent e).roster = s.roster := rfl
@[simp] theorem latchLineEvent_plan (s : State) (e : LineEvent) : (s.latchLineEvent e).plan = s.plan := rfl
@[simp] theorem latchLineEvent_disp (s : State) (e : LineEvent) : (s.latchLineEvent e).disp = s.disp := rfl
@[simp] theorem latchLineEvent_clock (s : State) (e : LineEvent) : (s.latchLineEvent e).clock = s.clock := rfl
@[simp] theorem latchLineEvent_queue (s : State) (e : LineEvent) : (s.latchLineEvent e).queue = s.queue := rfl
@[simp] theorem latchLineEvent_line (s : State) (e : LineEvent) : (s.latchLineEvent e).line = { s.line with lineEvent := { latched := true, event := e } } := rfl
@[simp] theorem latchLineEvent_lampStale (s : State) (e : LineEvent) : (s.latchLineEvent e).lampStale = s.lampStale := rfl
@[simp] theorem latchLineEvent_port (s : State) (e : LineEvent) : (s.latchLineEvent e).port = s.port := rfl
@[simp] theorem latchLineEvent_resetLine (s : State) (e : LineEvent) : (s.latchLineEvent e).resetLine = s.resetLine := rfl
@[simp] theorem latchLineEvent_pending (s : State) (e : LineEvent) : (s.latchLineEvent e).pending = s.pending := rfl

/-! ### State.setTickDue -/

@[simp] theorem setTickDue_calls (s : State) (d : TickDue) : (s.setTickDue d).calls = s.calls := rfl
@[simp] theorem setTickDue_roster (s : State) (d : TickDue) : (s.setTickDue d).roster = s.roster := rfl
@[simp] theorem setTickDue_plan (s : State) (d : TickDue) : (s.setTickDue d).plan = s.plan := rfl
@[simp] theorem setTickDue_disp (s : State) (d : TickDue) : (s.setTickDue d).disp = s.disp := rfl
@[simp] theorem setTickDue_clock (s : State) (d : TickDue) : (s.setTickDue d).clock = { s.clock with tickDue := d } := rfl
@[simp] theorem setTickDue_queue (s : State) (d : TickDue) : (s.setTickDue d).queue = s.queue := rfl
@[simp] theorem setTickDue_line (s : State) (d : TickDue) : (s.setTickDue d).line = s.line := rfl
@[simp] theorem setTickDue_lampStale (s : State) (d : TickDue) : (s.setTickDue d).lampStale = s.lampStale := rfl
@[simp] theorem setTickDue_port (s : State) (d : TickDue) : (s.setTickDue d).port = s.port := rfl
@[simp] theorem setTickDue_resetLine (s : State) (d : TickDue) : (s.setTickDue d).resetLine = s.resetLine := rfl
@[simp] theorem setTickDue_pending (s : State) (d : TickDue) : (s.setTickDue d).pending = s.pending := rfl

/-! ### State.setMinuteDue -/

@[simp] theorem setMinuteDue_calls (s : State) (d : MinuteDue) : (s.setMinuteDue d).calls = s.calls := rfl
@[simp] theorem setMinuteDue_roster (s : State) (d : MinuteDue) : (s.setMinuteDue d).roster = s.roster := rfl
@[simp] theorem setMinuteDue_plan (s : State) (d : MinuteDue) : (s.setMinuteDue d).plan = s.plan := rfl
@[simp] theorem setMinuteDue_disp (s : State) (d : MinuteDue) : (s.setMinuteDue d).disp = s.disp := rfl
@[simp] theorem setMinuteDue_clock (s : State) (d : MinuteDue) : (s.setMinuteDue d).clock = { s.clock with minuteDue := d } := rfl
@[simp] theorem setMinuteDue_queue (s : State) (d : MinuteDue) : (s.setMinuteDue d).queue = s.queue := rfl
@[simp] theorem setMinuteDue_line (s : State) (d : MinuteDue) : (s.setMinuteDue d).line = s.line := rfl
@[simp] theorem setMinuteDue_lampStale (s : State) (d : MinuteDue) : (s.setMinuteDue d).lampStale = s.lampStale := rfl
@[simp] theorem setMinuteDue_port (s : State) (d : MinuteDue) : (s.setMinuteDue d).port = s.port := rfl
@[simp] theorem setMinuteDue_resetLine (s : State) (d : MinuteDue) : (s.setMinuteDue d).resetLine = s.resetLine := rfl
@[simp] theorem setMinuteDue_pending (s : State) (d : MinuteDue) : (s.setMinuteDue d).pending = s.pending := rfl

/-! ### State.evalHorn -/

@[simp] theorem evalHorn_calls (s : State) : s.evalHorn.calls = s.calls := by simp only [State.evalHorn]
@[simp] theorem evalHorn_roster (s : State) : s.evalHorn.roster = s.roster := by simp only [State.evalHorn]
@[simp] theorem evalHorn_plan (s : State) : s.evalHorn.plan = s.plan := by simp only [State.evalHorn]
@[simp] theorem evalHorn_disp (s : State) : s.evalHorn.disp = { s.disp with horn := s.hornCondition && !s.disp.silenced } := by simp only [State.evalHorn]
@[simp] theorem evalHorn_clock (s : State) : s.evalHorn.clock = s.clock := by simp only [State.evalHorn]
@[simp] theorem evalHorn_queue (s : State) : s.evalHorn.queue = s.queue := by simp only [State.evalHorn]
@[simp] theorem evalHorn_line (s : State) : s.evalHorn.line = s.line := by simp only [State.evalHorn]
@[simp] theorem evalHorn_lampStale (s : State) : s.evalHorn.lampStale = s.lampStale := by simp only [State.evalHorn]
@[simp] theorem evalHorn_port (s : State) : s.evalHorn.port = s.port := by simp only [State.evalHorn]
@[simp] theorem evalHorn_resetLine (s : State) : s.evalHorn.resetLine = s.resetLine := by simp only [State.evalHorn]
@[simp] theorem evalHorn_pending (s : State) : s.evalHorn.pending = s.pending := by simp only [State.evalHorn]

/-! ### State.complete -/

@[simp] theorem complete_calls (s : State) (r : ResultCode) (a : List Byte) : (s.complete r a).calls = s.calls := by simp only [State.complete]
@[simp] theorem complete_roster (s : State) (r : ResultCode) (a : List Byte) : (s.complete r a).roster = s.roster := by simp only [State.complete]
@[simp] theorem complete_plan (s : State) (r : ResultCode) (a : List Byte) : (s.complete r a).plan = s.plan := by simp only [State.complete]
@[simp] theorem complete_disp (s : State) (r : ResultCode) (a : List Byte) : (s.complete r a).disp = s.disp := by simp only [State.complete]
@[simp] theorem complete_clock (s : State) (r : ResultCode) (a : List Byte) : (s.complete r a).clock = s.clock := by simp only [State.complete]
@[simp] theorem complete_queue (s : State) (r : ResultCode) (a : List Byte) : (s.complete r a).queue = s.queue := by simp only [State.complete]
@[simp] theorem complete_line (s : State) (r : ResultCode) (a : List Byte) : (s.complete r a).line = s.line := by simp only [State.complete]
@[simp] theorem complete_lampStale (s : State) (r : ResultCode) (a : List Byte) : (s.complete r a).lampStale = s.lampStale := by simp only [State.complete]
@[simp] theorem complete_port (s : State) (r : ResultCode) (a : List Byte) : (s.complete r a).port = { s.port with buffer := answerBuffer a, result := r, busy := false } := by simp only [State.complete]
@[simp] theorem complete_resetLine (s : State) (r : ResultCode) (a : List Byte) : (s.complete r a).resetLine = s.resetLine := by simp only [State.complete]
@[simp] theorem complete_pending (s : State) (r : ResultCode) (a : List Byte) : (s.complete r a).pending = s.pending := by simp only [State.complete]

/-! ### State.setPending -/

@[simp] theorem setPending_calls (s : State) (q : List Instr) : (s.setPending q).calls = s.calls := rfl
@[simp] theorem setPending_roster (s : State) (q : List Instr) : (s.setPending q).roster = s.roster := rfl
@[simp] theorem setPending_plan (s : State) (q : List Instr) : (s.setPending q).plan = s.plan := rfl
@[simp] theorem setPending_disp (s : State) (q : List Instr) : (s.setPending q).disp = s.disp := rfl
@[simp] theorem setPending_clock (s : State) (q : List Instr) : (s.setPending q).clock = s.clock := rfl
@[simp] theorem setPending_queue (s : State) (q : List Instr) : (s.setPending q).queue = s.queue := rfl
@[simp] theorem setPending_line (s : State) (q : List Instr) : (s.setPending q).line = s.line := rfl
@[simp] theorem setPending_lampStale (s : State) (q : List Instr) : (s.setPending q).lampStale = s.lampStale := rfl
@[simp] theorem setPending_port (s : State) (q : List Instr) : (s.setPending q).port = s.port := rfl
@[simp] theorem setPending_resetLine (s : State) (q : List Instr) : (s.setPending q).resetLine = s.resetLine := rfl
@[simp] theorem setPending_pending (s : State) (q : List Instr) : (s.setPending q).pending = q := rfl

/-! ### Reads after writes -/

@[simp] theorem slot_setSlot_same (s : State) (i : CallSlotNo) (x : CallSlot) : (s.setSlot i x).slot i = x := by
  simp [State.slot]

theorem slot_setSlot_other (s : State) {i j : CallSlotNo} (x : CallSlot) (h : j ≠ i) : (s.setSlot i x).slot j = s.slot j := by
  have : i.val ≠ j.val := fun e => h (Fin.ext e.symm)
  simp [State.slot, Vector.getElem_set_ne, this]

@[simp] theorem call_setSlot_same (s : State) (i : CallSlotNo) (x : CallSlot) : (s.setSlot i x).call i = x.call := by
  simp [State.call]

theorem call_setSlot_other (s : State) {i j : CallSlotNo} (x : CallSlot) (h : j ≠ i) : (s.setSlot i x).call j = s.call j := by
  simp [State.call, slot_setSlot_other s x h]

@[simp] theorem crew_setCrew_same (s : State) (k : CrewSlotNo) (x : Option Crew) : (s.setCrew k x).crew k = x := by
  simp [State.crew]

theorem crew_setCrew_other (s : State) {k l : CrewSlotNo} (x : Option Crew) (h : l ≠ k) : (s.setCrew k x).crew l = s.crew l := by
  have : k.val ≠ l.val := fun e => h (Fin.ext e.symm)
  simp [State.crew, Vector.getElem_set_ne, this]

@[simp] theorem crew_setSlot (s : State) (i : CallSlotNo) (x : CallSlot) (l : CrewSlotNo) : (s.setSlot i x).crew l = s.crew l := rfl
@[simp] theorem ladder_setSlot (s : State) (i : CallSlotNo) (x : CallSlot) (t : Trade) (c : CallClass) : (s.setSlot i x).ladder t c = s.ladder t c := rfl
@[simp] theorem slot_setAttentionQueue (s : State) (q : List CallSlotNo) (j : CallSlotNo) : (s.setAttentionQueue q).slot j = s.slot j := rfl
@[simp] theorem call_setAttentionQueue (s : State) (q : List CallSlotNo) (j : CallSlotNo) : (s.setAttentionQueue q).call j = s.call j := rfl
@[simp] theorem crew_setAttentionQueue (s : State) (q : List CallSlotNo) (l : CrewSlotNo) : (s.setAttentionQueue q).crew l = s.crew l := rfl
@[simp] theorem ladder_setAttentionQueue (s : State) (q : List CallSlotNo) (t : Trade) (c : CallClass) : (s.setAttentionQueue q).ladder t c = s.ladder t c := rfl
@[simp] theorem slot_setCrew (s : State) (k : CrewSlotNo) (x : Option Crew) (j : CallSlotNo) : (s.setCrew k x).slot j = s.slot j := rfl
@[simp] theorem call_setCrew (s : State) (k : CrewSlotNo) (x : Option Crew) (j : CallSlotNo) : (s.setCrew k x).call j = s.call j := rfl
@[simp] theorem ladder_setCrew (s : State) (k : CrewSlotNo) (x : Option Crew) (t : Trade) (c : CallClass) : (s.setCrew k x).ladder t c = s.ladder t c := rfl
@[simp] theorem slot_setWalk (s : State) (w : Walk) (j : CallSlotNo) : (s.setWalk w).slot j = s.slot j := rfl
@[simp] theorem call_setWalk (s : State) (w : Walk) (j : CallSlotNo) : (s.setWalk w).call j = s.call j := rfl
@[simp] theorem crew_setWalk (s : State) (w : Walk) (l : CrewSlotNo) : (s.setWalk w).crew l = s.crew l := rfl
@[simp] theorem ladder_setWalk (s : State) (w : Walk) (t : Trade) (c : CallClass) : (s.setWalk w).ladder t c = s.ladder t c := rfl
@[simp] theorem slot_setDispatchList (s : State) (l : List CallSlotNo) (j : CallSlotNo) : (s.setDispatchList l).slot j = s.slot j := rfl
@[simp] theorem call_setDispatchList (s : State) (l : List CallSlotNo) (j : CallSlotNo) : (s.setDispatchList l).call j = s.call j := rfl
@[simp] theorem crew_setDispatchList (s : State) (l : List CallSlotNo) (k : CrewSlotNo) : (s.setDispatchList l).crew k = s.crew k := rfl
@[simp] theorem ladder_setDispatchList (s : State) (l : List CallSlotNo) (t : Trade) (c : CallClass) : (s.setDispatchList l).ladder t c = s.ladder t c := rfl
@[simp] theorem slot_setEntries (s : State) (q : List Entry) (j : CallSlotNo) : (s.setEntries q).slot j = s.slot j := rfl
@[simp] theorem call_setEntries (s : State) (q : List Entry) (j : CallSlotNo) : (s.setEntries q).call j = s.call j := rfl
@[simp] theorem crew_setEntries (s : State) (q : List Entry) (l : CrewSlotNo) : (s.setEntries q).crew l = s.crew l := rfl
@[simp] theorem ladder_setEntries (s : State) (q : List Entry) (t : Trade) (c : CallClass) : (s.setEntries q).ladder t c = s.ladder t c := rfl
@[simp] theorem slot_setLampStale (s : State) (p : Point) (b : Bool) (j : CallSlotNo) : (s.setLampStale p b).slot j = s.slot j := rfl
@[simp] theorem call_setLampStale (s : State) (p : Point) (b : Bool) (j : CallSlotNo) : (s.setLampStale p b).call j = s.call j := rfl
@[simp] theorem crew_setLampStale (s : State) (p : Point) (b : Bool) (l : CrewSlotNo) : (s.setLampStale p b).crew l = s.crew l := rfl
@[simp] theorem ladder_setLampStale (s : State) (p : Point) (b : Bool) (t : Trade) (c : CallClass) : (s.setLampStale p b).ladder t c = s.ladder t c := rfl
@[simp] theorem slot_setAnswering (s : State) (z : Zone) (b : Bool) (j : CallSlotNo) : (s.setAnswering z b).slot j = s.slot j := rfl
@[simp] theorem call_setAnswering (s : State) (z : Zone) (b : Bool) (j : CallSlotNo) : (s.setAnswering z b).call j = s.call j := rfl
@[simp] theorem crew_setAnswering (s : State) (z : Zone) (b : Bool) (l : CrewSlotNo) : (s.setAnswering z b).crew l = s.crew l := rfl
@[simp] theorem ladder_setAnswering (s : State) (z : Zone) (b : Bool) (t : Trade) (c : CallClass) : (s.setAnswering z b).ladder t c = s.ladder t c := rfl
@[simp] theorem slot_setLineState (s : State) (l : LineState) (j : CallSlotNo) : (s.setLineState l).slot j = s.slot j := rfl
@[simp] theorem call_setLineState (s : State) (l : LineState) (j : CallSlotNo) : (s.setLineState l).call j = s.call j := rfl
@[simp] theorem crew_setLineState (s : State) (l : LineState) (k : CrewSlotNo) : (s.setLineState l).crew k = s.crew k := rfl
@[simp] theorem ladder_setLineState (s : State) (l : LineState) (t : Trade) (c : CallClass) : (s.setLineState l).ladder t c = s.ladder t c := rfl
@[simp] theorem slot_countReceiveError (s : State) (j : CallSlotNo) : s.countReceiveError.slot j = s.slot j := rfl
@[simp] theorem call_countReceiveError (s : State) (j : CallSlotNo) : s.countReceiveError.call j = s.call j := rfl
@[simp] theorem crew_countReceiveError (s : State) (l : CrewSlotNo) : s.countReceiveError.crew l = s.crew l := rfl
@[simp] theorem ladder_countReceiveError (s : State) (t : Trade) (c : CallClass) : s.countReceiveError.ladder t c = s.ladder t c := rfl
@[simp] theorem slot_countSendFault (s : State) (j : CallSlotNo) : s.countSendFault.slot j = s.slot j := rfl
@[simp] theorem call_countSendFault (s : State) (j : CallSlotNo) : s.countSendFault.call j = s.call j := rfl
@[simp] theorem crew_countSendFault (s : State) (l : CrewSlotNo) : s.countSendFault.crew l = s.crew l := rfl
@[simp] theorem ladder_countSendFault (s : State) (t : Trade) (c : CallClass) : s.countSendFault.ladder t c = s.ladder t c := rfl
@[simp] theorem slot_latchLineEvent (s : State) (e : LineEvent) (j : CallSlotNo) : (s.latchLineEvent e).slot j = s.slot j := rfl
@[simp] theorem call_latchLineEvent (s : State) (e : LineEvent) (j : CallSlotNo) : (s.latchLineEvent e).call j = s.call j := rfl
@[simp] theorem crew_latchLineEvent (s : State) (e : LineEvent) (l : CrewSlotNo) : (s.latchLineEvent e).crew l = s.crew l := rfl
@[simp] theorem ladder_latchLineEvent (s : State) (e : LineEvent) (t : Trade) (c : CallClass) : (s.latchLineEvent e).ladder t c = s.ladder t c := rfl
@[simp] theorem slot_evalHorn (s : State) (j : CallSlotNo) : s.evalHorn.slot j = s.slot j := by simp only [State.evalHorn, State.slot]
@[simp] theorem call_evalHorn (s : State) (j : CallSlotNo) : s.evalHorn.call j = s.call j := by simp only [State.evalHorn, State.call, State.slot]
@[simp] theorem crew_evalHorn (s : State) (l : CrewSlotNo) : s.evalHorn.crew l = s.crew l := by simp only [State.evalHorn, State.crew]
@[simp] theorem ladder_evalHorn (s : State) (t : Trade) (c : CallClass) : s.evalHorn.ladder t c = s.ladder t c := by simp only [State.evalHorn, State.ladder]
@[simp] theorem slot_complete (s : State) (r : ResultCode) (a : List Byte) (j : CallSlotNo) : (s.complete r a).slot j = s.slot j := by simp only [State.complete, State.slot]
@[simp] theorem call_complete (s : State) (r : ResultCode) (a : List Byte) (j : CallSlotNo) : (s.complete r a).call j = s.call j := by simp only [State.complete, State.call, State.slot]
@[simp] theorem crew_complete (s : State) (r : ResultCode) (a : List Byte) (l : CrewSlotNo) : (s.complete r a).crew l = s.crew l := by simp only [State.complete, State.crew]
@[simp] theorem ladder_complete (s : State) (r : ResultCode) (a : List Byte) (t : Trade) (c : CallClass) : (s.complete r a).ladder t c = s.ladder t c := by simp only [State.complete, State.ladder]
@[simp] theorem slot_setPending (s : State) (q : List Instr) (j : CallSlotNo) : (s.setPending q).slot j = s.slot j := rfl
@[simp] theorem call_setPending (s : State) (q : List Instr) (j : CallSlotNo) : (s.setPending q).call j = s.call j := rfl
@[simp] theorem crew_setPending (s : State) (q : List Instr) (l : CrewSlotNo) : (s.setPending q).crew l = s.crew l := rfl
@[simp] theorem ladder_setPending (s : State) (q : List Instr) (t : Trade) (c : CallClass) : (s.setPending q).ladder t c = s.ladder t c := rfl

end Sys2Proof.Machine
end

