-- ==== Sys2Proof/Laws/Records.lean ====
section
/-! SUPPORT. What the operations on one record do: modCall, modCrew, addAttention, the reading of tags and badges, and when an event comes. -/

namespace Sys2Proof.Machine

/-! ## modCall and modCrew -/

theorem modCall_of_some {s : State} {i : CallSlotNo} {c : Call} (h : s.call i = some c) (f : Call → Call) :
    s.modCall i f = s.setSlot i { s.slot i with call := some (f c) } := by
  simp [State.modCall, h]

theorem modCall_of_none {s : State} {i : CallSlotNo} (h : s.call i = none) (f : Call → Call) : s.modCall i f = s := by
  simp [State.modCall, h]

/-- modCall changes the call in its slot and no other. -/
theorem call_modCall (s : State) (i j : CallSlotNo) (f : Call → Call) :
    (s.modCall i f).call j = if j = i then (s.call i).map f else s.call j := by
  cases h : s.call i with
  | none => rw [modCall_of_none h]; split <;> simp_all
  | some c =>
    rw [modCall_of_some h]
    by_cases e : j = i
    · subst e; simp
    · simp [e, call_setSlot_other s _ e]

@[simp] theorem generation_modCall (s : State) (i j : CallSlotNo) (f : Call → Call) :
    ((s.modCall i f).slot j).generation = (s.slot j).generation := by
  cases h : s.call i with
  | none => rw [modCall_of_none h]
  | some c =>
    rw [modCall_of_some h]
    by_cases e : j = i
    · subst e; simp
    · rw [slot_setSlot_other s _ e]

@[simp] theorem tagOf_modCall (s : State) (i j : CallSlotNo) (f : Call → Call) : (s.modCall i f).tagOf j = s.tagOf j := by
  simp [State.tagOf]

theorem slot_modCall_other (s : State) {i j : CallSlotNo} (f : Call → Call) (e : j ≠ i) : (s.modCall i f).slot j = s.slot j := by
  cases h : s.call i with
  | none => rw [modCall_of_none h]
  | some c => rw [modCall_of_some h, slot_setSlot_other s _ e]

theorem modCrew_of_some {s : State} {k : CrewSlotNo} {c : Crew} (h : s.crew k = some c) (f : Crew → Crew) :
    s.modCrew k f = s.setCrew k (some (f c)) := by
  simp [State.modCrew, h]

theorem modCrew_of_none {s : State} {k : CrewSlotNo} (h : s.crew k = none) (f : Crew → Crew) : s.modCrew k f = s := by
  simp [State.modCrew, h]

/-- modCrew changes the crew in its slot and no other. -/
theorem crew_modCrew (s : State) (k l : CrewSlotNo) (f : Crew → Crew) :
    (s.modCrew k f).crew l = if l = k then (s.crew k).map f else s.crew l := by
  cases h : s.crew k with
  | none => rw [modCrew_of_none h]; split <;> simp_all
  | some c =>
    rw [modCrew_of_some h]
    by_cases e : l = k
    · subst e; simp
    · simp [e, crew_setCrew_other s _ e]

/-! ### The parts that modCall, modCrew and addAttention leave alone -/

@[simp] theorem modCall_attentionQueue (s : State) (i : CallSlotNo) (f : Call → Call) :
    (s.modCall i f).calls.attentionQueue = s.calls.attentionQueue := by
  unfold State.modCall; split <;> rfl
@[simp] theorem modCall_tableFull (s : State) (i : CallSlotNo) (f : Call → Call) :
    (s.modCall i f).calls.tableFull = s.calls.tableFull := by
  unfold State.modCall; split <;> rfl
@[simp] theorem modCall_roster (s : State) (i : CallSlotNo) (f : Call → Call) : (s.modCall i f).roster = s.roster := by
  unfold State.modCall; split <;> rfl
@[simp] theorem modCall_plan (s : State) (i : CallSlotNo) (f : Call → Call) : (s.modCall i f).plan = s.plan := by
  unfold State.modCall; split <;> rfl
@[simp] theorem modCall_disp (s : State) (i : CallSlotNo) (f : Call → Call) : (s.modCall i f).disp = s.disp := by
  unfold State.modCall; split <;> rfl
@[simp] theorem modCall_clock (s : State) (i : CallSlotNo) (f : Call → Call) : (s.modCall i f).clock = s.clock := by
  unfold State.modCall; split <;> rfl
@[simp] theorem modCall_queue (s : State) (i : CallSlotNo) (f : Call → Call) : (s.modCall i f).queue = s.queue := by
  unfold State.modCall; split <;> rfl
@[simp] theorem modCall_line (s : State) (i : CallSlotNo) (f : Call → Call) : (s.modCall i f).line = s.line := by
  unfold State.modCall; split <;> rfl
@[simp] theorem modCall_lampStale (s : State) (i : CallSlotNo) (f : Call → Call) : (s.modCall i f).lampStale = s.lampStale := by
  unfold State.modCall; split <;> rfl
@[simp] theorem modCall_port (s : State) (i : CallSlotNo) (f : Call → Call) : (s.modCall i f).port = s.port := by
  unfold State.modCall; split <;> rfl
@[simp] theorem modCall_resetLine (s : State) (i : CallSlotNo) (f : Call → Call) : (s.modCall i f).resetLine = s.resetLine := by
  unfold State.modCall; split <;> rfl
@[simp] theorem modCall_pending (s : State) (i : CallSlotNo) (f : Call → Call) : (s.modCall i f).pending = s.pending := by
  unfold State.modCall; split <;> rfl
@[simp] theorem crew_modCall (s : State) (i : CallSlotNo) (f : Call → Call) (k : CrewSlotNo) :
    (s.modCall i f).crew k = s.crew k := by
  simp [State.crew]

@[simp] theorem modCrew_calls (s : State) (k : CrewSlotNo) (f : Crew → Crew) : (s.modCrew k f).calls = s.calls := by
  unfold State.modCrew; split <;> rfl
@[simp] theorem modCrew_unknownBadge (s : State) (k : CrewSlotNo) (f : Crew → Crew) :
    (s.modCrew k f).roster.unknownBadge = s.roster.unknownBadge := by
  unfold State.modCrew; split <;> rfl
@[simp] theorem modCrew_walk (s : State) (k : CrewSlotNo) (f : Crew → Crew) : (s.modCrew k f).roster.walk = s.roster.walk := by
  unfold State.modCrew; split <;> rfl
@[simp] theorem modCrew_shiftCutDone (s : State) (k : CrewSlotNo) (f : Crew → Crew) :
    (s.modCrew k f).roster.shiftCutDone = s.roster.shiftCutDone := by
  unfold State.modCrew; split <;> rfl
@[simp] theorem modCrew_plan (s : State) (k : CrewSlotNo) (f : Crew → Crew) : (s.modCrew k f).plan = s.plan := by
  unfold State.modCrew; split <;> rfl
@[simp] theorem modCrew_disp (s : State) (k : CrewSlotNo) (f : Crew → Crew) : (s.modCrew k f).disp = s.disp := by
  unfold State.modCrew; split <;> rfl
@[simp] theorem modCrew_clock (s : State) (k : CrewSlotNo) (f : Crew → Crew) : (s.modCrew k f).clock = s.clock := by
  unfold State.modCrew; split <;> rfl
@[simp] theorem modCrew_queue (s : State) (k : CrewSlotNo) (f : Crew → Crew) : (s.modCrew k f).queue = s.queue := by
  unfold State.modCrew; split <;> rfl
@[simp] theorem modCrew_line (s : State) (k : CrewSlotNo) (f : Crew → Crew) : (s.modCrew k f).line = s.line := by
  unfold State.modCrew; split <;> rfl
@[simp] theorem modCrew_lampStale (s : State) (k : CrewSlotNo) (f : Crew → Crew) : (s.modCrew k f).lampStale = s.lampStale := by
  unfold State.modCrew; split <;> rfl
@[simp] theorem modCrew_port (s : State) (k : CrewSlotNo) (f : Crew → Crew) : (s.modCrew k f).port = s.port := by
  unfold State.modCrew; split <;> rfl
@[simp] theorem modCrew_resetLine (s : State) (k : CrewSlotNo) (f : Crew → Crew) : (s.modCrew k f).resetLine = s.resetLine := by
  unfold State.modCrew; split <;> rfl
@[simp] theorem modCrew_pending (s : State) (k : CrewSlotNo) (f : Crew → Crew) : (s.modCrew k f).pending = s.pending := by
  unfold State.modCrew; split <;> rfl
@[simp] theorem slot_modCrew (s : State) (k : CrewSlotNo) (f : Crew → Crew) (i : CallSlotNo) :
    (s.modCrew k f).slot i = s.slot i := by
  simp [State.slot]
@[simp] theorem call_modCrew (s : State) (k : CrewSlotNo) (f : Crew → Crew) (i : CallSlotNo) :
    (s.modCrew k f).call i = s.call i := by
  simp [State.call]

/-- addAttention adds the reason's bit to the call in its slot and changes no other call. -/
theorem call_addAttention (s : State) (i j : CallSlotNo) (r : AttentionReason) :
    (s.addAttention i r).call j =
      if j = i then (s.call i).map (fun c => { c with attention := c.attention ||| r.bit }) else s.call j := by
  cases h : s.call i with
  | none => simp only [State.addAttention, h]; split <;> simp_all
  | some c =>
    simp only [State.addAttention, h]
    by_cases e : j = i
    · subst e
      split <;> simp
    · split <;> simp [call_setSlot_other s _ e]

/-! ## Tags -/

/-- A tag that names a call resolves to it. -/
theorem resolve_of_names {s : State} {i : CallSlotNo} {c : Call} (h : TagNames s i c) :
    s.resolve (Tag.ofByte (s.arg 0)) = .names c ∧ (Tag.ofByte (s.arg 0)).slot = i := by
  obtain ⟨ht, hc⟩ := h
  rw [ht]
  simp [State.resolve, State.tagOf, hc]

/-- The byte of a tag reads back as the tag. -/
theorem ofByte_byte (t : Tag) : Tag.ofByte t.byte = t := by
  obtain ⟨g, i⟩ := t
  have hi := i.isLt
  have hg := g.isLt
  have e : (BitVec.ofNat 8 (i.val + 64 * g.val)).toNat = i.val + 64 * g.val := by
    rw [BitVec.toNat_ofNat]; omega
  simp only [Tag.byte, Tag.ofByte, e, Tag.mk.injEq]
  constructor <;> (apply Fin.ext; simp only; omega)

/-! ## Badges -/

/-- The slot that a badge resolves to carries it. -/
theorem badge_of_enrolled {s : State} {b : Badge} {k : CrewSlotNo} (h : s.enrolled b = some k) :
    ∃ c, s.crew k = some c ∧ c.badge = b := by
  have := List.find?_some h
  cases e : s.crew k with
  | none => simp [e] at this
  | some c => simp [e] at this; exact ⟨c, rfl, this⟩

/-- An occupied slot's badge is enrolled there, since no other slot carries it. -/
theorem enrolled_of_badge {s : State} (hb : BadgesOk s) {k : CrewSlotNo} {c : Crew} (h : s.crew k = some c) :
    s.enrolled c.badge = some k := by
  cases e : s.enrolled c.badge with
  | none =>
    have := List.find?_eq_none.mp e k (List.mem_finRange k)
    simp [h] at this
  | some l =>
    obtain ⟨d, hd, he⟩ := badge_of_enrolled e
    exact congrArg some (hb.2 l k d c hd h he)

/-- An unenrolled badge stands in no slot. -/
theorem not_enrolled {s : State} {b : Badge} (h : s.enrolled b = none) (k : CrewSlotNo) (c : Crew) (hk : s.crew k = some c) :
    c.badge ≠ b := by
  have := List.find?_eq_none.mp h k (List.mem_finRange k)
  simpa [hk] using this

/-! ## When an event comes -/

theorem commandDue_iff (s : State) (code : Byte) : s.commandDue code = true ↔ CommandWaits code s := by
  simp [State.commandDue, CommandWaits, and_assoc]

/-- A host command that waits completes as one event at its block. -/
theorem runCommand_of_waits {command : HostCommand} {s : State} (h : CommandWaits command.code s)
    (effect : State → CommandEffect) :
    runCommand command effect s =
      .next ((settle s (effect s).lamps (effect s).state).complete (effect s).result (effect s).answer) := by
  simp only [runCommand, (commandDue_iff s _).mpr h, if_true]

/-- A frame is heard where it can be handed over, in a receipt window too. -/
theorem hearsFrame_iff (s : State) : s.hearsFrame = true ↔ HearsFrames s ∨ InReceiptWindow s := by
  unfold State.hearsFrame HearsFrames InReceiptWindow
  cases h : s.line.state <;> simp
  rename_i w
  cases w <;> simp

theorem inWindow_iff (s : State) : s.inWindow = true ↔ InReceiptWindow s := by
  unfold State.inWindow InReceiptWindow
  cases h : s.line.state <;> simp
  rename_i w
  cases w <;> simp

/-- What a frame does that is heard: its effect on the records of a line that has brought it in, the end of an attempt that
waited for its receipt, and the line after it. -/
theorem receiveFrame_of_heard {s : State} (h : s.hearsFrame = true) (beacon : Option Zone) (effect : State → FrameEffect) :
    let s0 := s.setLineState (.busy .receiving)
    let e := effect (match beacon with
      | some z => s0.setAnswering z true
      | none => s0)
    receiveFrame beacon effect s =
      .next ((s.afterFrame (settle s0 e.lamps e.state)).setLineState (.busy (lineAfterFrame e.receipt))) := if_pos h

/-- A frame that comes in a receipt window ends the attempt; elsewhere it ends none. -/
theorem afterFrame_of_window {s : State} (h : InReceiptWindow s) (t : State) : s.afterFrame t = t.endUnreceipted :=
  if_pos ((inWindow_iff s).mpr h)

theorem afterFrame_of_hears {s : State} (h : HearsFrames s) (t : State) : s.afterFrame t = t :=
  if_neg (fun hw => by
    have hw := ((inWindow_iff s).mp hw).2
    obtain ⟨-, h | h | h | ⟨_, h⟩⟩ := h <;> simp [hw] at h)

/-- An attempt ends in its receipt window alone. -/
theorem endWindow_of_window {s : State} (h : InReceiptWindow s) (t : State) :
    s.endWindow t = t.setLineState (.busy .frameOver) := if_pos ((inWindow_iff s).mpr h)

theorem endWindow_of_no_window {s : State} (h : ¬ InReceiptWindow s) (t : State) : s.endWindow t = s :=
  if_neg (fun hw => h ((inWindow_iff s).mp hw))

theorem sending_iff (s : State) : s.sending = true ↔ Sends s := by
  unfold State.sending Sends
  cases h : s.line.state <;> simp
  rename_i w
  cases w <;> simp

end Sys2Proof.Machine
end

