-- ==== Sys2Proof/Laws/Frame.lean ====
section
/-! SUPPORT. The frame of the shared operations: what displacement, placing, lamp updates and the end of an event leave alone, said once. -/

namespace Sys2Proof.Machine

/-- What the entries of an event can do besides the event's own effect: the other blocks stay, a call with offers can lose
some, a crew can lose its offer. -/
def FrameKept (s t : State) (calls : CallSlotNo → Prop) (crews : CrewSlotNo → Prop) : Prop :=
  KeepsRest s t ∧ KeepsCalls s t calls ∧ KeepsCrews s t crews ∧ t.port = s.port ∧ t.disp.horn = s.disp.horn ∧
    t.line = s.line ∧ t.calls.attentionQueue = s.calls.attentionQueue

/-- Displacement and lamp updates reach nothing outside the frame: no exception is needed. -/
def Spares (s t : State) : Prop := FrameKept s t (fun _ => False) (fun _ => False)

theorem KeepsRest.refl (s : State) : KeepsRest s s := ⟨rfl, rfl, rfl, rfl, rfl, rfl, rfl, rfl, rfl, rfl⟩

theorem KeepsRest.trans {s t u : State} (h : KeepsRest s t) (k : KeepsRest t u) : KeepsRest s u := by
  obtain ⟨a1, a2, a3, a4, a5, a6, a7, a8, a9, a10⟩ := h
  obtain ⟨b1, b2, b3, b4, b5, b6, b7, b8, b9, b10⟩ := k
  refine ⟨b1.trans a1, b2.trans a2, ?_, b4.trans a4, b5.trans a5, b6.trans a6, b7.trans a7, b8.trans a8, b9.trans a9,
    b10.trans a10⟩
  rw [b3, a3]

theorem KeepsCalls.refl (s : State) (e : CallSlotNo → Prop) : KeepsCalls s s e :=
  fun _ _ => ⟨rfl, id, fun c hc => ⟨fun _ => hc, c, hc, .refl _, fun _ => rfl, rfl⟩⟩

theorem KeepsCalls.trans {s t u : State} {e : CallSlotNo → Prop} (h : KeepsCalls s t e) (k : KeepsCalls t u e) :
    KeepsCalls s u e := by
  intro j hj
  obtain ⟨g, n, p⟩ := h j hj
  obtain ⟨g', n', p'⟩ := k j hj
  refine ⟨g'.trans g, fun hn => n' (n hn), fun c hc => ?_⟩
  obtain ⟨q, d, hd, sub, same, eq⟩ := p c hc
  obtain ⟨q', f, hf, sub', same', eq'⟩ := p' d hd
  refine ⟨fun ho => ?_, f, hf, sub'.trans sub, fun he => ?_, ?_⟩
  · have hcd : d = c := Option.some.inj (hd.symm.trans (q ho))
    subst hcd
    exact q' ho
  · have hdc : d.offerees = c.offerees := sub.eq_of_length_le (by simpa [he] using sub'.length_le)
    rw [same' (he.trans hdc.symm), same hdc]
  · rw [eq', eq]

theorem KeepsCalls.mono {s t : State} {e f : CallSlotNo → Prop} (h : KeepsCalls s t e) (m : ∀ j, e j → f j) :
    KeepsCalls s t f := fun j hj => h j (fun he => hj (m j he))

theorem KeepsCrews.refl (s : State) (e : CrewSlotNo → Prop) : KeepsCrews s s e := fun _ _ => ⟨id, fun _ hc => .inl hc⟩

theorem KeepsCrews.trans {s t u : State} {e : CrewSlotNo → Prop} (h : KeepsCrews s t e) (k : KeepsCrews t u e) :
    KeepsCrews s u e := by
  intro j hj
  obtain ⟨n, p⟩ := h j hj
  obtain ⟨n', p'⟩ := k j hj
  refine ⟨fun hn => n' (n hn), fun c hc => ?_⟩
  rcases p c hc with h1 | h1
  · exact p' c h1
  · rcases p' _ h1 with h2 | h2 <;> exact .inr h2

theorem KeepsCrews.mono {s t : State} {e f : CrewSlotNo → Prop} (h : KeepsCrews s t e) (m : ∀ j, e j → f j) :
    KeepsCrews s t f := fun j hj => h j (fun he => hj (m j he))

theorem FrameKept.refl (s : State) (e : CallSlotNo → Prop) (f : CrewSlotNo → Prop) : FrameKept s s e f :=
  ⟨KeepsRest.refl s, KeepsCalls.refl s e, KeepsCrews.refl s f, rfl, rfl, rfl, rfl⟩

theorem FrameKept.trans {s t u : State} {e : CallSlotNo → Prop} {f : CrewSlotNo → Prop} (h : FrameKept s t e f) (k : FrameKept t u e f) :
    FrameKept s u e f :=
  ⟨h.1.trans k.1, h.2.1.trans k.2.1, h.2.2.1.trans k.2.2.1, k.2.2.2.1.trans h.2.2.2.1,
    k.2.2.2.2.1.trans h.2.2.2.2.1, k.2.2.2.2.2.1.trans h.2.2.2.2.2.1, k.2.2.2.2.2.2.trans h.2.2.2.2.2.2⟩

theorem FrameKept.mono {s t : State} {e e' : CallSlotNo → Prop} {f f' : CrewSlotNo → Prop} (h : FrameKept s t e f)
    (m : ∀ j, e j → e' j) (n : ∀ j, f j → f' j) : FrameKept s t e' f' :=
  ⟨h.1, h.2.1.mono m, h.2.2.1.mono n, h.2.2.2⟩

theorem Spares.refl (s : State) : Spares s s := FrameKept.refl s _ _
theorem Spares.trans {s t u : State} (h : Spares s t) (k : Spares t u) : Spares s u := FrameKept.trans h k

/-! ## Updates of the queue, the lamp-stale flags and the throttle -/

theorem spares_setEntries (s : State) (q : List Entry) : Spares s (s.setEntries q) :=
  ⟨⟨rfl, rfl, rfl, rfl, rfl, rfl, rfl, rfl, rfl, rfl⟩,
    fun _ _ => ⟨rfl, id, fun c hc => ⟨fun _ => hc, c, hc, .refl _, fun _ => rfl, rfl⟩⟩, fun _ _ => ⟨id, fun _ hc => .inl hc⟩, rfl,
    rfl, rfl, rfl⟩

theorem spares_setLampStale (s : State) (p : Point) (b : Bool) : Spares s (s.setLampStale p b) :=
  ⟨⟨rfl, rfl, rfl, rfl, rfl, rfl, rfl, rfl, rfl, rfl⟩,
    fun _ _ => ⟨rfl, id, fun c hc => ⟨fun _ => hc, c, hc, .refl _, fun _ => rfl, rfl⟩⟩, fun _ _ => ⟨id, fun _ hc => .inl hc⟩, rfl,
    rfl, rfl, rfl⟩

theorem spares_setDispatchList (s : State) (l : List CallSlotNo) : Spares s (s.setDispatchList l) :=
  ⟨⟨rfl, rfl, rfl, rfl, rfl, rfl, rfl, rfl, rfl, rfl⟩,
    fun _ _ => ⟨rfl, id, fun c hc => ⟨fun _ => hc, c, hc, .refl _, fun _ => rfl, rfl⟩⟩, fun _ _ => ⟨id, fun _ hc => .inl hc⟩, rfl,
    rfl, rfl, rfl⟩

theorem spares_compareThrottle (s : State) : Spares s s.compareThrottle := by
  have h (q : SendQueue) : Spares s { s with queue := q } :=
    ⟨⟨rfl, rfl, rfl, rfl, rfl, rfl, rfl, rfl, rfl, rfl⟩,
      fun _ _ => ⟨rfl, id, fun c hc => ⟨fun _ => hc, c, hc, .refl _, fun _ => rfl, rfl⟩⟩, fun _ _ => ⟨id, fun _ hc => .inl hc⟩, rfl,
      rfl, rfl, rfl⟩
  unfold State.compareThrottle
  split
  · exact h _
  · split
    · exact h _
    · exact Spares.refl s

/-! ## The loss of an offer -/

/-- The call in a slot that has offers loses some, with the fields that go with the loss. -/
def LosesOffers (c d : Call) : Prop :=
  d.offerees.Sublist c.offerees ∧
    d = { c with state := d.state, triesUsed := d.triesUsed, offerees := d.offerees, history := d.history, timer := d.timer }

/-- An operation on the offers of the call in one slot. -/
def OffersOnly (s t : State) (i : CallSlotNo) : Prop :=
  KeepsRest s t ∧ t.port = s.port ∧ t.disp.horn = s.disp.horn ∧ t.line = s.line ∧
    t.calls.attentionQueue = s.calls.attentionQueue ∧
    (∀ j, (t.slot j).generation = (s.slot j).generation) ∧ (∀ j, j ≠ i → t.call j = s.call j) ∧
    (s.call i = none → t.call i = none) ∧ (∀ c, s.call i = some c → ∃ d, t.call i = some d ∧ LosesOffers c d) ∧
    KeepsCrews s t (fun _ => False)

theorem LosesOffers.refl (c : Call) : LosesOffers c c := ⟨.refl _, rfl⟩

theorem LosesOffers.trans {c d e : Call} (h : LosesOffers c d) (k : LosesOffers d e) : LosesOffers c e :=
  ⟨k.1.trans h.1, by rw [k.2, h.2]⟩

theorem OffersOnly.refl (s : State) (i : CallSlotNo) : OffersOnly s s i :=
  ⟨KeepsRest.refl s, rfl, rfl, rfl, rfl, fun _ => rfl, fun _ _ => rfl, id, fun c hc => ⟨c, hc, LosesOffers.refl c⟩,
    KeepsCrews.refl s _⟩

theorem OffersOnly.trans {s t u : State} {i : CallSlotNo} (h : OffersOnly s t i) (k : OffersOnly t u i) : OffersOnly s u i := by
  obtain ⟨a1, a2, a3, a4, a5, a6, a7, a8, a9, a10⟩ := h
  obtain ⟨b1, b2, b3, b4, b5, b6, b7, b8, b9, b10⟩ := k
  refine ⟨a1.trans b1, b2.trans a2, b3.trans a3, b4.trans a4, b5.trans a5, fun j => (b6 j).trans (a6 j),
    fun j hj => (b7 j hj).trans (a7 j hj), fun hn => b8 (a8 hn), fun c hc => ?_, a10.trans b10⟩
  obtain ⟨d, hd, hl⟩ := a9 c hc
  obtain ⟨e, he, hl'⟩ := b9 d hd
  exact ⟨e, he, hl.trans hl'⟩

/-- Losing offers is within the frame for a call that does lose one. -/
theorem OffersOnly.spares {s t : State} {i : CallSlotNo} (h : OffersOnly s t i)
    (o : ∀ c d, s.call i = some c → t.call i = some d → d.offerees ≠ c.offerees) : Spares s t := by
  obtain ⟨a1, a2, a3, a4, a5, a6, a7, a8, a9, a10⟩ := h
  refine ⟨a1, fun j _ => ⟨a6 j, fun hn => ?_, fun c hc => ?_⟩, a10, a2, a3, a4, a5⟩
  · by_cases e : j = i
    · subst e; exact a8 hn
    · rw [a7 j e]; exact hn
  · by_cases e : j = i
    · subst e
      obtain ⟨d, hd, hl⟩ := a9 c hc
      exact ⟨fun ho => absurd (List.sublist_nil.mp (ho ▸ hl.1) |>.trans ho.symm) (o c d hc hd), d, hd, hl.1,
        fun he => absurd he (o c d hc hd), hl.2⟩
    · rw [a7 j e]
      exact ⟨fun _ => hc, c, hc, .refl _, fun _ => rfl, rfl⟩

theorem offersOnly_modCall (s : State) (i : CallSlotNo) (f : Call → Call) (h : ∀ c, LosesOffers c (f c)) :
    OffersOnly s (s.modCall i f) i := by
  refine ⟨?_, by simp, by simp, by simp, by simp, fun j => by simp, fun j hj => ?_, fun hn => ?_, fun c hc => ?_, ?_⟩
  · unfold State.modCall; split <;> exact ⟨rfl, rfl, rfl, rfl, rfl, rfl, rfl, rfl, rfl, rfl⟩
  · simp [call_modCall, hj]
  · simp [call_modCall, hn]
  · exact ⟨f c, by simp [call_modCall, hc], h c⟩
  · intro k _
    rw [crew_modCall]
    exact ⟨id, fun _ hc => .inl hc⟩

theorem offersOnly_setDispatchList (s : State) (i : CallSlotNo) (l : List CallSlotNo) :
    OffersOnly s (s.setDispatchList l) i :=
  ⟨⟨rfl, rfl, rfl, rfl, rfl, rfl, rfl, rfl, rfl, rfl⟩, rfl, rfl, rfl, rfl, fun _ => rfl, fun _ _ => rfl, id,
    fun c hc => ⟨c, hc, LosesOffers.refl c⟩, fun _ _ => ⟨id, fun _ hc => .inl hc⟩⟩

theorem offersOnly_clearOffer (s : State) (i : CallSlotNo) (k : CrewSlotNo) :
    OffersOnly s (s.modCrew k (fun c => { c with offer := none })) i := by
  refine ⟨?_, by simp, by simp, by simp, by simp, fun j => by simp, fun j hj => by simp, by simp, fun c hc => ?_, ?_⟩
  · unfold State.modCrew; split <;> exact ⟨rfl, rfl, rfl, rfl, rfl, rfl, rfl, rfl, rfl, rfl⟩
  · exact ⟨c, by simp [hc], LosesOffers.refl c⟩
  · intro l _
    rw [crew_modCrew]
    by_cases e : l = k
    · subst e
      refine ⟨fun hn => by simp [hn], fun c hc => .inr (by simp [hc])⟩
    · exact ⟨fun hn => by simpa [e] using hn, fun c hc => .inl (by simpa [e] using hc)⟩

theorem offersOnly_endOffer (s : State) (i : CallSlotNo) (k : CrewSlotNo) (o : Option OfferOutcome) :
    OffersOnly s (s.endOffer i k o) i :=
  (offersOnly_modCall s i _ (fun _ => ⟨List.filter_sublist, rfl⟩)).trans (offersOnly_clearOffer _ i k)

/-- The record of a call whose offer ends. -/
theorem call_endOffer_self {s : State} {i : CallSlotNo} {k : CrewSlotNo} {o : Option OfferOutcome} {c : Call}
    (h : s.call i = some c) : (s.endOffer i k o).call i = some { c with
      offerees := c.offerees.filter (· ≠ k)
      history := match o with
        | some o => addHistory c.history { crew := k, outcome := o }
        | none => c.history } := by
  cases o <;> simp only [State.endOffer, call_modCrew, call_modCall, h, if_pos, Option.map_some]

theorem offersOnly_becomeWaiting (s : State) (i : CallSlotNo) : OffersOnly s (s.becomeWaiting i) i := by
  have h : OffersOnly s (s.modCall i (fun c => { c.stopTimer with state := .waiting })) i :=
    offersOnly_modCall s i _ (fun c => ⟨.refl _, rfl⟩)
  unfold State.becomeWaiting
  simp only
  split
  · split
    · exact h.trans (offersOnly_setDispatchList _ i _)
    · exact h
  · exact h

theorem offersOnly_waitIfNoOfferee (s : State) (i : CallSlotNo) : OffersOnly s (s.waitIfNoOfferee i) i := by
  unfold State.waitIfNoOfferee
  split
  · split
    · exact offersOnly_becomeWaiting s i
    · exact OffersOnly.refl s i
  · exact OffersOnly.refl s i

theorem offersOnly_giveTryBack (s : State) (i : CallSlotNo) : OffersOnly s (s.giveTryBack i) i := by
  unfold State.giveTryBack
  split
  · split
    · exact offersOnly_modCall s i _ (fun c => ⟨.refl _, rfl⟩)
    · exact OffersOnly.refl s i
  · exact OffersOnly.refl s i

/-! ## Displacement and placing -/

/-- A standing offer is an offer: its call has offerees. -/
theorem standingOffer_offeree {s : State} {tag : Tag} {b : Badge} {i : CallSlotNo} {k : CrewSlotNo}
    (h : s.standingOffer tag b = some (i, k)) : ∃ c, s.call i = some c ∧ k ∈ c.offerees := by
  unfold State.standingOffer at h
  split at h
  · rename_i c l hr he
    split at h
    · rename_i hc
      simp only [Option.some.injEq, Prod.mk.injEq] at h
      obtain ⟨h1, h2⟩ := h
      subst h1; subst h2
      refine ⟨c, ?_, by simpa using hc⟩
      unfold State.resolve at hr
      split at hr
      · simp at hr
      · split at hr
        · simp at hr
        · rename_i d hd
          simp only [TagMeaning.names.injEq] at hr
          rw [hd, hr]
    · simp at h
  · simp at h

theorem spares_reportDisplaced (s : State) (e : Entry) : Spares s (s.reportDisplaced e) := by
  unfold State.reportDisplaced
  split
  · split
    · exact Spares.refl s
    · split
      · rename_i i k h
        obtain ⟨c, hc, hk⟩ := standingOffer_offeree h
        have later := (offersOnly_giveTryBack (s.endOffer i k (some .withdrawn)) i).trans (offersOnly_waitIfNoOfferee _ i)
        refine OffersOnly.spares ((offersOnly_endOffer s i k _).trans later) (fun c' d hc' hd he => ?_)
        obtain rfl : c' = c := Option.some.inj (hc'.symm.trans hc)
        obtain ⟨f, hf, hl⟩ := later.2.2.2.2.2.2.2.2.1 _ (call_endOffer_self hc)
        obtain rfl : f = d := Option.some.inj (hf.symm.trans hd)
        have := hl.1.subset (he ▸ hk)
        simp at this
      · exact Spares.refl s
  · exact Spares.refl s
  · exact spares_setLampStale s _ _

theorem spares_displaceOne (keep : Entry → Bool) (s : State) : Spares s (s.displaceOne keep) := by
  unfold State.displaceOne
  split
  · exact (spares_setEntries s _).trans (spares_reportDisplaced _ _)
  · exact Spares.refl s

theorem spares_displace (keep : Entry → Bool) (n : Nat) (s : State) : Spares s (State.displace keep n s) := by
  induction n generalizing s with
  | zero => exact Spares.refl s
  | succ n ih => exact (spares_displaceOne keep s).trans (ih _)

/-- Placing an entry reaches nothing outside the frame. -/
theorem spares_place (s : State) (e : Entry) : Spares s (s.place e) := by
  unfold State.place
  split
  · exact spares_setEntries s _
  · split
    · exact (spares_displaceOne _ s).trans (spares_setEntries _ _)
    · exact spares_reportDisplaced s e

theorem spares_offerPage (s : State) (p : Page) : Spares s (s.offerPage p) := by
  unfold State.offerPage
  split
  · exact Spares.refl s
  · exact (spares_setEntries s _).trans (spares_place _ _)

theorem spares_offerWithdraw (s : State) (w : Withdraw) : Spares s (s.offerWithdraw w) := spares_place s _

theorem spares_offerLamp (s : State) (p : Point) (l : LampStates) (b : CallClass) : Spares s (s.offerLamp p l b) := by
  unfold State.offerLamp
  split
  · exact spares_setEntries s _
  · exact spares_place s _

/-! ## The end of an event -/

theorem spares_lampRounds (before : State) (extra : List Point) (n : Nat) (done : List Point) (s : State) :
    Spares s (lampRounds before extra n done s).1 := by
  induction n generalizing done s with
  | zero => exact Spares.refl s
  | succ n ih =>
    unfold lampRounds
    split
    · exact Spares.refl s
    · exact (spares_offerLamp s _ _ _).trans (ih _ _)

theorem spares_refreshLamps (s : State) (ps : List Point) : Spares s (s.refreshLamps ps) := by
  induction ps generalizing s with
  | nil => exact Spares.refl s
  | cons p ps ih => exact (spares_setEntries s _).trans (ih _)

/-- The end of an event reaches nothing outside the frame. -/
theorem spares_settle (before : State) (extra : List Point) (after : State) : Spares after (settle before extra after) := by
  have h := (spares_lampRounds before extra 96 [] after).trans
    (spares_refreshLamps _ (lampRounds before extra 96 [] after).2)
  unfold settle throttleAtEnd
  split
  · exact h
  · exact h.trans (spares_compareThrottle _)

/-- An event that changes no lamp, asks for none, and leaves the count as it was ends where it is. -/
theorem settle_eq_self (before after : State) (hl : ∀ i, lampView (after.slot i) = lampView (before.slot i))
    (hc : after.queue.entries.length = before.queue.entries.length) : settle before [] after = after := by
  have hp : changedPoints before after = [] := by
    unfold changedPoints
    rw [List.flatMap_eq_nil_iff]
    intro i _
    simp [hl i]
  have hr : lampRounds before [] 96 [] after = (after, []) := by
    unfold lampRounds
    rw [hp]
    simp [lowestPoint]
  unfold settle throttleAtEnd lampUpdates
  rw [hr]
  simp [State.refreshLamps, State.queueCount, hc]

/-- The end of an event leaves the queue of commands alone. -/
theorem settle_pending (before : State) (extra : List Point) (after : State) :
    (settle before extra after).pending = after.pending := (spares_settle before extra after).1.2.2.2.2.2.2.2.2.2

/-! ## The clocks -/

/-- What an event of a tick or of a minute leaves alone: every block but the calls, the crews, the plan and the clock. -/
def ClockFrame (s t : State) : Prop :=
  t = { s with
    calls := { s.calls with slots := t.calls.slots }, roster := { s.roster with crews := t.roster.crews }
    plan := { s.plan with autoClose := t.plan.autoClose }, clock := t.clock }

theorem clockFrame_tickPart (s : State) (part : TickPart) : ClockFrame s (s.tickPart part) := by
  cases part with
  | whole => rfl
  | divider => rfl
  | timer i => simp only [State.tickPart]; split <;> rfl
  | sighting k => simp only [State.tickPart]; split <;> rfl
  | autoClose => simp only [State.tickPart]; split <;> rfl
  | minuteCount => simp only [State.tickPart]; split <;> rfl

theorem clockFrame_minutePart (s : State) (part : MinutePart) : ClockFrame s (s.minutePart part) := by
  cases part <;> (simp only [State.minutePart]; split <;> rfl)

end Sys2Proof.Machine
end

