-- ==== Sys2Proof/Laws/PerInstr.lean ====
section
/-! SUPPORT. Families of statements for all commands, one lemma for each constructor. -/

namespace Sys2Proof.Laws.BodyBound

/-- The frame that carries a well-formed command has a body of at most eight bytes, and its length field says how many
(R127). -/
def Statement (i : Instr) : Prop :=
  ∀ cls f, i.wf = true → i.fieldFrame cls = some f → (∀ h, i ≠ .receptionError h) →
    f.body.length ≤ 8 ∧ f.length.toNat = f.body.length

theorem make_fits (cls : CallClass) (k : FrameKind) (w : Bool) (a d : Addr) (b : List Byte) (h : bodyOk b = true) :
    (Frame.make cls k w a d b).body.length ≤ 8 ∧
      (Frame.make cls k w a d b).length.toNat = (Frame.make cls k w a d b).body.length := by
  have hb : b.length ≤ 8 := by simpa [bodyOk] using h
  refine ⟨hb, ?_⟩
  show (BitVec.ofNat 4 b.length).toNat = b.length
  rw [BitVec.toNat_ofNat]
  omega

theorem raise (source : Point) (body : List Byte) : Statement (.raise source body) := by
  intro cls f hw hf _
  cases hf
  exact make_fits _ _ _ _ _ _ hw
theorem cancel (source : Point) (body : List Byte) : Statement (.cancel source body) := by
  intro cls f hw hf _
  cases hf
  exact make_fits _ _ _ _ _ _ hw
theorem pointHello (source : Point) (dest : Destination) (body : List Byte) : Statement (.pointHello source dest body) := by
  intro cls f hw hf _
  cases hf
  exact make_fits _ _ _ _ _ _ hw
theorem key (source : Zone) (body : List Byte) : Statement (.key source body) := by
  intro cls f hw hf _
  cases hf
  exact make_fits _ _ _ _ _ _ hw
theorem sight (source : Zone) (dest : Destination) (body : List Byte) : Statement (.sight source dest body) := by
  intro cls f hw hf _
  cases hf
  exact make_fits _ _ _ _ _ _ hw
theorem beaconHello (source : Zone) (dest : Destination) (body : List Byte) : Statement (.beaconHello source dest body) := by
  intro cls f hw hf _
  cases hf
  exact make_fits _ _ _ _ _ _ hw
theorem receptionError (heard : HeardFrame) : Statement (.receptionError heard) := fun _ _ _ _ hn => absurd rfl (hn _)
theorem hostRaise : Statement (.hostRaise) := fun _ _ _ hf _ => nomatch hf
theorem readCall : Statement (.readCall) := fun _ _ _ hf _ => nomatch hf
theorem findCalls : Statement (.findCalls) := fun _ _ _ hf _ => nomatch hf
theorem hold : Statement (.hold) := fun _ _ _ hf _ => nomatch hf
theorem resume : Statement (.resume) := fun _ _ _ hf _ => nomatch hf
theorem closeCall : Statement (.closeCall) := fun _ _ _ hf _ => nomatch hf
theorem retire : Statement (.retire) := fun _ _ _ hf _ => nomatch hf
theorem assign : Statement (.assign) := fun _ _ _ hf _ => nomatch hf
theorem escalate : Statement (.escalate) := fun _ _ _ hf _ => nomatch hf
theorem repage : Statement (.repage) := fun _ _ _ hf _ => nomatch hf
theorem enrol : Statement (.enrol) := fun _ _ _ hf _ => nomatch hf
theorem amend : Statement (.amend) := fun _ _ _ hf _ => nomatch hf
theorem removeCrew : Statement (.removeCrew) := fun _ _ _ hf _ => nomatch hf
theorem readCrew : Statement (.readCrew) := fun _ _ _ hf _ => nomatch hf
theorem setDuty : Statement (.setDuty) := fun _ _ _ hf _ => nomatch hf
theorem stageDuty : Statement (.stageDuty) := fun _ _ _ hf _ => nomatch hf
theorem shiftCut : Statement (.shiftCut) := fun _ _ _ hf _ => nomatch hf
theorem shiftCutStep : Statement (.shiftCutStep) := fun _ _ _ hf _ => nomatch hf
theorem planWrite : Statement (.planWrite) := fun _ _ _ hf _ => nomatch hf
theorem planRead : Statement (.planRead) := fun _ _ _ hf _ => nomatch hf
theorem planClose : Statement (.planClose) := fun _ _ _ hf _ => nomatch hf
theorem silenceHorn : Statement (.silenceHorn) := fun _ _ _ hf _ => nomatch hf
theorem lineState : Statement (.lineState) := fun _ _ _ hf _ => nomatch hf
theorem unknownCommand : Statement (.unknownCommand) := fun _ _ _ hf _ => nomatch hf
theorem bufferWrite (loc : BufferLoc) (value : Byte) : Statement (.bufferWrite loc value) := fun _ _ _ hf _ => nomatch hf
theorem statusRead : Statement (.statusRead) := fun _ _ _ hf _ => nomatch hf
theorem noticeTake : Statement (.noticeTake) := fun _ _ _ hf _ => nomatch hf
theorem noticeMaskWrite (value : Byte) : Statement (.noticeMaskWrite value) := fun _ _ _ hf _ => nomatch hf
theorem ignoredWrite (loc : BitVec 5) (value : Byte) : Statement (.ignoredWrite loc value) := fun _ _ _ hf _ => nomatch hf
theorem powerOn (phase : PowerPhase) : Statement (.powerOn phase) := fun _ _ _ hf _ => nomatch hf
theorem resetLineAssertion : Statement (.resetLineAssertion) := fun _ _ _ hf _ => nomatch hf
theorem warmRestart : Statement (.warmRestart) := fun _ _ _ hf _ => nomatch hf
theorem tick (part : TickPart) : Statement (.tick part) := fun _ _ _ hf _ => nomatch hf
theorem minute (part : MinutePart) : Statement (.minute part) := fun _ _ _ hf _ => nomatch hf
theorem offerExpiry (slot : CallSlotNo) : Statement (.offerExpiry slot) := fun _ _ _ hf _ => nomatch hf
theorem travelExpiry (slot : CallSlotNo) : Statement (.travelExpiry slot) := fun _ _ _ hf _ => nomatch hf
theorem retryExpiry (slot : CallSlotNo) : Statement (.retryExpiry slot) := fun _ _ _ hf _ => nomatch hf
theorem autoClose : Statement (.autoClose) := fun _ _ _ hf _ => nomatch hf
theorem dispatchTurn : Statement (.dispatchTurn) := fun _ _ _ hf _ => nomatch hf
theorem lineIdle : Statement (.lineIdle) := fun _ _ _ hf _ => nomatch hf
theorem frameSendStart : Statement (.frameSendStart) := fun _ _ _ hf _ => nomatch hf
theorem arbitrationLoss (mismatch : Mismatch) : Statement (.arbitrationLoss mismatch) := fun _ _ _ hf _ => nomatch hf
theorem bitFault (mismatch : Mismatch) : Statement (.bitFault mismatch) := fun _ _ _ hf _ => nomatch hf
theorem frameSent : Statement (.frameSent) := fun _ _ _ hf _ => nomatch hf
theorem receiptTaken (receipt : HeardReceipt) : Statement (.receiptTaken receipt) := fun _ _ _ hf _ => nomatch hf
theorem noReceipt : Statement (.noReceipt) := fun _ _ _ hf _ => nomatch hf
theorem receiptEchoMismatch : Statement (.receiptEchoMismatch) := fun _ _ _ hf _ => nomatch hf
theorem lineHold : Statement (.lineHold) := fun _ _ _ hf _ => nomatch hf
theorem lineHoldRepeat : Statement (.lineHoldRepeat) := fun _ _ _ hf _ => nomatch hf
theorem lineStuck : Statement (.lineStuck) := fun _ _ _ hf _ => nomatch hf
theorem lineClear : Statement (.lineClear) := fun _ _ _ hf _ => nomatch hf
theorem dominantEdge : Statement (.dominantEdge) := fun _ _ _ hf _ => nomatch hf
theorem commandTaken (value : Byte) : Statement (.commandTaken value) := fun _ _ _ hf _ => nomatch hf

end Sys2Proof.Laws.BodyBound
end

