-- ==== Sys2Proof/Laws/SendQueue.lean ====
section
/-! SUPPORT. The Send Queue's operations: what joining, displacement, placing and the end of an event do to the entries, their number and their order. -/

namespace Sys2Proof.Machine

/-- STOP before URGENT before ROUTINE (R112). -/
def InBands (q : List Entry) : Prop := q.Pairwise (fun a b => classRank b.band ≤ classRank a.band)

theorem queueOk_iff (s : State) : QueueOk s ↔ s.queue.entries.length ≤ 24 ∧ InBands s.queue.entries := Iff.rfl

/-! ## Joining the tail of a band -/

theorem mem_joinTail {e x : Entry} {q : List Entry} : x ∈ joinTail e q ↔ x = e ∨ x ∈ q := by
  unfold joinTail
  conv => rhs; rw [← List.takeWhile_append_dropWhile (p := fun y : Entry => decide (classRank e.band ≤ classRank y.band)) (l := q)]
  simp only [List.mem_append, List.mem_cons]
  exact or_left_comm

@[simp] theorem length_joinTail (e : Entry) (q : List Entry) : (joinTail e q).length = q.length + 1 := by
  have h := congrArg List.length
    (List.takeWhile_append_dropWhile (p := fun y : Entry => decide (classRank e.band ≤ classRank y.band)) (l := q))
  simp only [List.length_append] at h
  simp only [joinTail, List.length_append, List.length_cons]
  omega

theorem inBands_joinTail {e : Entry} {q : List Entry} (h : InBands q) : InBands (joinTail e q) := by
  induction q with
  | nil => simp [joinTail, InBands]
  | cons a q ih =>
    obtain ⟨ha, hq⟩ := List.pairwise_cons.mp h
    by_cases c : classRank e.band ≤ classRank a.band
    · have : joinTail e (a :: q) = a :: joinTail e q := by simp [joinTail, c]
      rw [this]
      refine List.pairwise_cons.mpr ⟨fun x hx => ?_, ih hq⟩
      rcases mem_joinTail.mp hx with rfl | hx
      · exact c
      · exact ha x hx
    · have : joinTail e (a :: q) = e :: a :: q := by simp [joinTail, c]
      rw [this]
      refine List.pairwise_cons.mpr ⟨fun x hx => ?_, h⟩
      rcases List.mem_cons.mp hx with rfl | hx
      · omega
      · exact Nat.le_trans (ha x hx) (by omega)

/-! ## Taking the youngest -/

/-- Where none is taken, no entry meets the test. -/
theorem takeYoungest_none {p : Entry → Bool} {q : List Entry} (h : takeYoungest p q = none) : ∀ x ∈ q, p x = false := by
  induction q with
  | nil => simp
  | cons z l ih =>
    intro y hy
    unfold takeYoungest at h
    split at h
    · simp at h
    · rename_i hl
      split at h
      · simp at h
      · rename_i hz
        rcases List.mem_cons.mp hy with rfl | hy
        · simpa using hz
        · exact ih hl y hy

/-- Taking the youngest entry that meets a test removes that one entry. -/
theorem takeYoungest_spec {p : Entry → Bool} {q q' : List Entry} {d : Entry} (h : takeYoungest p q = some (d, q')) :
    p d = true ∧ ∃ a b, q = a ++ d :: b ∧ q' = a ++ b ∧ ∀ x ∈ b, p x = false := by
  induction q generalizing q' d with
  | nil => simp [takeYoungest] at h
  | cons e q ih =>
    unfold takeYoungest at h
    split at h
    · rename_i d' r hr
      simp only [Option.some.injEq, Prod.mk.injEq] at h
      obtain ⟨rfl, rfl⟩ := h
      obtain ⟨hp, a, b, hq, hr', hb⟩ := ih hr
      exact ⟨hp, e :: a, b, by simp [hq], by simp [hr'], hb⟩
    · rename_i hn
      split at h
      · rename_i hp
        simp only [Option.some.injEq, Prod.mk.injEq] at h
        obtain ⟨rfl, rfl⟩ := h
        exact ⟨hp, [], q, rfl, rfl, takeYoungest_none hn⟩
      · simp at h

/-- What is left after a removal stands in the same order. -/
theorem InBands.remove {a b : List Entry} {d : Entry} (h : InBands (a ++ d :: b)) : InBands (a ++ b) :=
  h.sublist (List.Sublist.append (List.Sublist.refl a) (List.sublist_cons_self d b))

/-! ## The entries after the shared operations -/

@[simp] theorem becomeWaiting_queue (s : State) (i : CallSlotNo) : (s.becomeWaiting i).queue = s.queue := by
  unfold State.becomeWaiting
  simp only
  split
  · split
    · simp [State.joinDispatch]
    · simp
  · simp

@[simp] theorem waitIfNoOfferee_queue (s : State) (i : CallSlotNo) : (s.waitIfNoOfferee i).queue = s.queue := by
  unfold State.waitIfNoOfferee
  split
  · split <;> simp
  · rfl

@[simp] theorem giveTryBack_queue (s : State) (i : CallSlotNo) : (s.giveTryBack i).queue = s.queue := by
  unfold State.giveTryBack
  split
  · split <;> simp
  · rfl

@[simp] theorem endOffer_queue (s : State) (i : CallSlotNo) (k : CrewSlotNo) (o : Option OfferOutcome) :
    (s.endOffer i k o).queue = s.queue := by
  simp [State.endOffer]

/-- The report to a displaced entry's owner leaves the queue alone. -/
@[simp] theorem reportDisplaced_queue (s : State) (e : Entry) : (s.reportDisplaced e).queue = s.queue := by
  unfold State.reportDisplaced
  split
  · split
    · rfl
    · split <;> simp
  · rfl
  · rfl

/-- Displacement removes one pending ROUTINE entry, the youngest, or nothing. -/
theorem displaceOne_entries (keep : Entry → Bool) (s : State) :
    (s.displaceOne keep).queue.entries = s.queue.entries ∨
      ∃ a d b, s.queue.entries = a ++ d :: b ∧ (s.displaceOne keep).queue.entries = a ++ b ∧ d.pendingRoutine = true := by
  unfold State.displaceOne
  split
  · rename_i d q h
    obtain ⟨hp, a, b, hq, hr, _⟩ := takeYoungest_spec h
    refine .inr ⟨a, d, b, hq, by simp [hr], ?_⟩
    revert hp
    cases d.pendingRoutine <;> simp
  · exact .inl rfl

theorem queueOk_setEntries_joinTail {s : State} {e : Entry} {q : List Entry} (hl : q.length < 24) (h : InBands q) :
    QueueOk (s.setEntries (joinTail e q)) :=
  ⟨by simp; omega, inBands_joinTail h⟩

theorem queueOk_displaceOne {keep : Entry → Bool} {s : State} (h : QueueOk s) : QueueOk (s.displaceOne keep) := by
  rcases displaceOne_entries keep s with he | ⟨a, d, b, hq, hr, _⟩
  · unfold QueueOk
    rw [he]
    exact h
  · obtain ⟨hl, hb⟩ := h
    rw [hq] at hl hb
    refine ⟨?_, ?_⟩
    · rw [hr]
      simp only [List.length_append, List.length_cons] at hl ⊢
      omega
    · rw [hr]
      exact InBands.remove hb

theorem queueOk_displace {keep : Entry → Bool} (n : Nat) {s : State} (h : QueueOk s) :
    QueueOk (State.displace keep n s) := by
  induction n generalizing s with
  | zero => exact h
  | succ n ih => exact ih (queueOk_displaceOne h)

/-- Displacement of the youngest pending ROUTINE entry frees one place where there is such an entry. -/
theorem displaceOne_frees {s : State} (h : s.queue.entries.any Entry.pendingRoutine = true) :
    (s.displaceOne (fun _ => false)).queue.entries.length + 1 = s.queue.entries.length := by
  unfold State.displaceOne
  split
  · rename_i d q ht
    obtain ⟨_, a, b, hq, hr, _⟩ := takeYoungest_spec ht
    simp [hq, hr]
    omega
  · rename_i ht
    exfalso
    obtain ⟨x, hx, hp⟩ := List.any_eq_true.mp h
    have hf : x.pendingRoutine = false := by simpa using takeYoungest_none ht x hx
    rw [hp] at hf
    exact absurd hf (by decide)

/-- Placing keeps the queue's bound and its order. -/
theorem queueOk_place {s : State} (e : Entry) (h : QueueOk s) : QueueOk (s.place e) := by
  unfold State.place
  split
  · rename_i hc
    exact queueOk_setEntries_joinTail hc h.2
  · split
    · rename_i hc
      have hf := displaceOne_frees hc.2
      have hd := queueOk_displaceOne (keep := fun _ => false) h
      have hl := h.1
      exact queueOk_setEntries_joinTail (by omega) hd.2
    · unfold QueueOk
      rw [reportDisplaced_queue]
      exact h

theorem queueOk_filter {s : State} (p : Entry → Bool) (h : QueueOk s) : QueueOk (s.setEntries (s.queue.entries.filter p)) :=
  ⟨Nat.le_trans (List.length_filter_le p _) h.1, h.2.filter p⟩

theorem queueOk_offerPage {s : State} (p : Page) (h : QueueOk s) : QueueOk (s.offerPage p) := by
  unfold State.offerPage
  split
  · exact h
  · exact queueOk_place _ (queueOk_filter _ h)

theorem queueOk_offerWithdraw {s : State} (w : Withdraw) (h : QueueOk s) : QueueOk (s.offerWithdraw w) :=
  queueOk_place _ h

theorem inBands_map {f : Entry → Entry} {q : List Entry} (hf : ∀ e, (f e).band = e.band) (h : InBands q) :
    InBands (q.map f) := List.pairwise_map.mpr (h.imp (fun {a b} hab => by rw [hf, hf]; exact hab))

theorem queueOk_rewrite {s : State} (f : Entry → Entry) (hf : ∀ e, (f e).band = e.band) (h : QueueOk s) :
    QueueOk (s.setEntries (s.queue.entries.map f)) := ⟨by simpa using h.1, inBands_map hf h.2⟩

/-- A coalescing LAMP keeps the order of the queue. -/
theorem inBands_coalesceLamp {p : Point} {l : LampStates} {b : CallClass} {e : Entry} {q : List Entry} (h : InBands q) :
    InBands (coalesceLamp p l b e q) := by
  unfold coalesceLamp
  split
  · exact inBands_map (fun x => by split <;> rfl) h
  · exact inBands_joinTail (h.filter _)

/-- A LAMP that coalesces with a pending one makes the queue no longer. -/
theorem length_coalesceLamp {p : Point} {l : LampStates} {b : CallClass} {e : Entry} {q : List Entry}
    (h : ∃ x ∈ q, x.pendingLamp p = true) : (coalesceLamp p l b e q).length ≤ q.length := by
  unfold coalesceLamp
  split
  · simp
  · rw [length_joinTail]
    exact List.length_filter_lt_length_iff_exists.mpr (h.imp fun x hx => ⟨hx.1, by simpa using hx.2⟩)

theorem queueOk_offerLamp {s : State} (p : Point) (l : LampStates) (b : CallClass) (h : QueueOk s) :
    QueueOk (s.offerLamp p l b) := by
  unfold State.offerLamp
  split
  · rename_i e he
    exact ⟨Nat.le_trans (length_coalesceLamp ⟨e, List.mem_of_find?_eq_some he, List.find?_some he⟩) h.1,
      inBands_coalesceLamp h.2⟩
  · exact queueOk_place _ h

theorem queueOk_lampRounds {before : State} {extra : List Point} (n : Nat) (done : List Point) {s : State} (h : QueueOk s) :
    QueueOk (lampRounds before extra n done s).1 := by
  induction n generalizing done s with
  | zero => exact h
  | succ n ih =>
    unfold lampRounds
    split
    · exact h
    · exact ih _ (queueOk_offerLamp _ _ _ h)

theorem queueOk_refreshLamps {s : State} (ps : List Point) (h : QueueOk s) : QueueOk (s.refreshLamps ps) := by
  induction ps generalizing s with
  | nil => exact h
  | cons p ps ih => exact ih (queueOk_rewrite _ (fun x => by split <;> rfl) h)

@[simp] theorem compareThrottle_entries (s : State) : s.compareThrottle.queue.entries = s.queue.entries := by
  unfold State.compareThrottle
  split
  · rfl
  · split <;> rfl

/-- The end of an event keeps the queue's bound and its order. -/
theorem queueOk_settle {before after : State} {extra : List Point} (h : QueueOk after) :
    QueueOk (settle before extra after) := by
  have h' : QueueOk (lampUpdates before extra after) := queueOk_refreshLamps _ (queueOk_lampRounds 96 [] h)
  unfold settle throttleAtEnd
  split
  · exact h'
  · unfold QueueOk
    rw [compareThrottle_entries]
    exact h'

/-! ## Landing -/

/-- Landing keeps the order of the queue and makes it no longer. -/
theorem inBands_landEntries {q : List Entry} (h : InBands q) : InBands (landEntries q) := by
  unfold landEntries
  split
  · exact h
  · have hl {e : Entry} : InBands ((q.filter (fun y => !e.twin y)).map Entry.land) := inBands_map (fun _ => rfl) (h.filter _)
    split
    · exact hl
    · split
      · exact inBands_coalesceLamp hl
      · exact hl
      · exact hl

/-- A twin of an entry is pending, and the twin of a LAMP is a LAMP of its point. -/
theorem twin_pending {e x : Entry} (h : e.twin x = true) : x.inFlight = false ∧
    ∀ p l, x.content = .lamp p l → ∃ m, e.content = .lamp p m := by
  unfold Entry.twin at h
  cases he : e.content <;> cases hx : x.content <;>
    simp_all [Entry.pendingPage, Entry.pendingLamp, Entry.isPage, Entry.isLamp, Entry.pending]

theorem length_landEntries (q : List Entry) : (landEntries q).length ≤ q.length := by
  unfold landEntries
  split
  · exact Nat.le_refl _
  · rename_i e he
    have hl : ((q.filter (fun y => !e.twin y)).map Entry.land).length ≤ q.length := by
      simpa using List.length_filter_le (fun y => !e.twin y) q
    split
    · exact hl
    · rename_i x hx
      obtain ⟨-, ht⟩ := twin_pending (List.find?_some hx)
      split
      · rename_i p states hc
        obtain ⟨m, hm⟩ := ht p states hc
        have hf : e.inFlight = true := by simpa using List.find?_some he
        have hn : e.twin e = false := by
          cases h : e.twin e
          · rfl
          · exact absurd hf (by simp [(twin_pending h).1])
        refine Nat.le_trans (length_coalesceLamp ⟨e.land, ?_, ?_⟩) hl
        · exact List.mem_map_of_mem (List.mem_filter.mpr ⟨List.mem_of_find?_eq_some he, by simp [hn]⟩)
        · simp [Entry.pendingLamp, Entry.pending, Entry.isLamp, Entry.land, hm]
      · exact hl
      · exact hl

/-- Nothing lands where no entry is in flight. -/
theorem landEntries_of_none_in_flight {q : List Entry} (h : ∀ e ∈ q, e.inFlight = false) : landEntries q = q := by
  unfold landEntries
  rw [List.find?_eq_none.mpr (fun e he => by simp [h e he])]

/-- A landing reaches the Send Queue alone, and keeps its bound and its order. -/
theorem queueOk_landAll {s : State} (h : QueueOk s) : QueueOk s.landAll := by
  have h' : QueueOk (s.setEntries (landEntries s.queue.entries)) :=
    ⟨Nat.le_trans (length_landEntries _) h.1, inBands_landEntries h.2⟩
  unfold State.landAll throttleAtEnd
  split
  · exact h'
  · unfold QueueOk
    rw [compareThrottle_entries]
    exact h'

theorem spares_landAll (s : State) : Spares s s.landAll := by
  unfold State.landAll throttleAtEnd
  split
  · exact spares_setEntries s _
  · exact (spares_setEntries s _).trans (spares_compareThrottle _)

end Sys2Proof.Machine
end

