-- ==== Sys2Proof/Tests/Slice0.lean ====
section
/-! SUPPORT. Tests: the checks of well-formedness, small steps of each family, and for each statement with hypotheses a concrete state that meets them. -/

namespace Sys2Proof.Tests

open Sys2Proof Sys2Proof.Machine

set_option Elab.async false

/-! ## A small site -/

def rungAlone (grade : Grade) (reach : Reach) (mode : RungMode) : Rung :=
  { grade := grade, reach := reach, mode := mode, offerTime := 45 }

/-- Electrical: a SINGLE rung in the zone, then an ALL rung over the site; overdue calls are reclaimed. -/
def electricalLadder : Ladder where
  rungs := [rungAlone .fitter .zone (.single 2), rungAlone .fitter .site .all]
  travel := some 600
  reclaim := true
  retry := 300

/-- Mechanical: one SINGLE rung for leads, no travel allowance. -/
def mechanicalLadder : Ladder where
  rungs := [rungAlone .lead .site (.single 1)]
  travel := none
  reclaim := false
  retry := 300

/-- Hydraulic: a travel allowance without reclaim. -/
def hydraulicLadder : Ladder where
  rungs := [rungAlone .supervisor .site (.single 1)]
  travel := some 30
  reclaim := false
  retry := 10

/-- A closed plan: point 0 in zone 0 is enabled, point 1 is not, and crane ladders are absent. -/
def sitePlan : SitePlan :=
  { SitePlan.powerOn with
    zones := Vector.ofFn (fun z => if z = 0 then { beacon := true, neighbours := [1] } else { beacon := false, neighbours := [] })
    points := Vector.ofFn (fun p => if p.val < 2 then { zone := some 0, enabled := p.val = 0 } else { zone := none, enabled := false })
    ladders := Vector.ofFn (fun l => if l.val < 3 then some electricalLadder else if l.val < 6 then some mechanicalLadder
      else if l.val < 9 then some hydraulicLadder else none)
    loadLimit := 3
    phase := .closed
    firstClose := true }

def crewOf (n : Nat) (grade : Grade) (duty : Duty) (load : Nat) (offer : Option Tag) : Crew where
  badge := BitVec.ofNat 16 (100 + n)
  trades := 0x3
  grade := grade
  home := 0
  duty := duty
  staged := none
  lastSeen := some 0
  sightAge := 0
  load := load
  offer := offer
  idle := 5

def callOf (state : CallState) (desk : Fin 8) (trade : Trade) (cls : CallClass) : Call :=
  { raisedCall (.desk desk) 0 trade cls with state := state, attention := 0 }

def timed (mode : TimerMode) (count : Nat) (due : Bool) (c : Call) : Call :=
  { c with timer := { mode := mode, count := count, expiryPending := due } }

/-- Calls in every state: 0 WAITING; 1 and 2 OFFERED; 3 to 5 ACCEPTED; 6 ATTENDING; 7 UNCLAIMED; 8 CLOSED; 9 to 14 held by
command; 16 raised at point 0. -/
def siteCall (i : Nat) : Option Call :=
  match i with
  | 0 => some { callOf .waiting 0 .electrical .routine with attention := 0x01 }
  | 1 => some (timed .offer 0 true { callOf .offered 1 .electrical .routine with offerees := [0] })
  | 2 => some (timed .offer 9 false { callOf .offered 2 .electrical .urgent with offerees := [1, 4], rung := 1, triesUsed := 1 })
  | 3 => some (timed .travel 0 true { callOf .accepted 3 .electrical .routine with holder := some 3 })
  | 4 => some (timed .travel 0 true { callOf .accepted 4 .hydraulic .routine with holder := some 4 })
  | 5 => some { callOf .accepted 5 .mechanical .routine with holder := some 4 }
  | 6 => some { callOf .attending 6 .electrical .urgent with holder := some 5 }
  | 7 => some { timed .retry 0 true (callOf .unclaimed 7 .electrical .stop) with attention := 0x08 }
  | 8 => some { callOf .closed 0 .mechanical .routine with closeReason := some .cleared, reported := true }
  | 9 => some { callOf .waiting 1 .mechanical .urgent with hold := some .command }
  | 10 => some (timed .travel 0 false { callOf .accepted 2 .hydraulic .routine with holder := some 5, hold := some .command })
  | 11 => some (timed .retry 0 false { callOf .unclaimed 3 .mechanical .routine with hold := some .command })
  | 12 => some (timed .retry 7 false { callOf .unclaimed 4 .mechanical .stop with hold := some .command })
  | 13 => some { callOf .attending 5 .electrical .routine with holder := some 5, hold := some .command }
  | 14 => some (timed .travel 7 false { callOf .accepted 6 .hydraulic .routine with holder := some 3, hold := some .command })
  | 16 => some { callOf .waiting 0 .electrical .urgent with origin := .point 0 }
  | _ => none

def siteTag (i : CallSlotNo) : Tag := { generation := 1, slot := i }

/-- Crews: 0, 1 and 4 with offers, 3 to 5 holders (5 at the load limit), 2 and 6 free, 7 off duty. -/
def siteCrew (k : Nat) : Option Crew :=
  match k with
  | 0 => some (crewOf 0 .lead .on 0 (some (siteTag 1)))
  | 1 => some (crewOf 1 .fitter .on 0 (some (siteTag 2)))
  | 2 => some (crewOf 2 .fitter .on 0 none)
  | 3 => some (crewOf 3 .fitter .on 2 none)
  | 4 => some (crewOf 4 .supervisor .on 2 (some (siteTag 2)))
  | 5 => some (crewOf 5 .lead .on 3 none)
  | 6 => some (crewOf 6 .fitter .on 0 none)
  | 7 => some (crewOf 7 .fitter .off 0 none)
  | _ => none

def site : State :=
  { State.reset with
    calls := { slots := Vector.ofFn (fun i => { generation := 1, call := siteCall i.val })
               attentionQueue := [0, 7], tableFull := { latched := false, origin := none, count := 0 } }
    roster := { Roster.powerOn with crews := Vector.ofFn (fun k => siteCrew k.val) }
    plan := sitePlan
    disp := { list := [16, 0], horn := true, silenced := false }
    line := { LineController.powerOn with state := .idle } }

theorem site_binding : BindingOk site := bindingOk_of_check (by decide +kernel)
theorem site_dispatch : DispatchOk site := dispatchOk_of_check (by decide +kernel)
theorem site_badges : BadgesOk site := badgesOk_of_check (by decide +kernel)
theorem site_ranges : RangesOk site := rangesOk_of_check (by decide +kernel)
theorem site_attention : AttentionOk site := attentionOk_of_check (by decide +kernel)
theorem site_horn : HornRight site := hornRight_of_check (by decide +kernel)
theorem site_queue : QueueOk site := queueOk_of_check (by decide +kernel)

/-! ## States around the site -/

theorem binding_of_same {s t : State} (hc : t.calls = s.calls) (hr : t.roster = s.roster) (h : BindingOk s) : BindingOk t := by
  cases s; cases t; cases hc; cases hr; exact h

theorem dispatch_of_same {s t : State} (hc : t.calls = s.calls) (hd : t.disp = s.disp) (h : DispatchOk s) : DispatchOk t := by
  cases s; cases t; cases hc; cases hd; exact h

theorem badges_of_same {s t : State} (hr : t.roster = s.roster) (h : BadgesOk s) : BadgesOk t := by
  cases s; cases t; cases hr; exact h

/-- A host command waits with these argument bytes. -/
def waits (c : HostCommand) (args : List Byte) (s : State) : State :=
  { s with port := { s.port with busy := true, code := c.code, buffer := answerBuffer args } }

theorem waits_waits (c : HostCommand) (args : List Byte) (s : State) (h : s.resetLine = .released)
    (w : s.roster.walk.progress = .idle) : CommandWaits c.code (waits c args s) := by
  unfold CommandWaits waits
  exact ⟨h, rfl, rfl, w⟩

/-- A command of the site names the call in a slot, and every law that a statement on it takes as a premise holds. -/
def Named (cmd : HostCommand) (args : List Byte) (i : CallSlotNo) (c : Call) : Prop :=
  BindingOk (waits cmd ((siteTag i).byte :: args) site) ∧ DispatchOk (waits cmd ((siteTag i).byte :: args) site) ∧
    BadgesOk (waits cmd ((siteTag i).byte :: args) site) ∧
    CommandWaits cmd.code (waits cmd ((siteTag i).byte :: args) site) ∧
    (waits cmd ((siteTag i).byte :: args) site).plan.phase = .closed ∧
    TagNames (waits cmd ((siteTag i).byte :: args) site) i c

theorem site_generation (i : CallSlotNo) : (site.slot i).generation = 1 := by
  revert i; decide +kernel

theorem named (cmd : HostCommand) (args : List Byte) (i : CallSlotNo) (c : Call) (h : site.call i = some c) :
    Named cmd args i c := by
  refine ⟨binding_of_same rfl rfl site_binding, dispatch_of_same rfl rfl site_dispatch, badges_of_same rfl site_badges,
    waits_waits cmd _ site rfl rfl, rfl, ?_, h⟩
  have e : (waits cmd ((siteTag i).byte :: args) site).arg 0 = (siteTag i).byte := by
    simp [waits, State.arg, answerBuffer]
  rw [e, ofByte_byte]
  show siteTag i = site.tagOf i
  simp [siteTag, State.tagOf, site_generation]

/-- The site with a call at the head of the dispatch list: a STOP call of a trade, in slot 15. -/
def siteStop (t : Trade) : State :=
  (site.setSlot 15 { generation := 1, call := some (callOf .waiting 7 t .stop) }).setDispatchList [15, 16, 0]

/-- The site while it sends the first of two entries. -/
def sendingEntry (content : EntryContent) (attempts : Nat) (dest : Addr) : Entry :=
  { content := content, band := .stop, attempts := attempts, dest := some dest, inFlight := true }

def waitingEntry : Entry :=
  Entry.fresh (.withdraw { tag := siteTag 3, badge := 103, reason := .closed, cls := .routine }) .routine

def sitePage : Page :=
  { tag := siteTag 1, badge := 100, trade := .electrical, cls := .routine, zone := 0, origin := .desk 1, rung := 0,
    mode := .single }

def siteSends (e : Entry) : State :=
  { site with
    queue := { entries := [e, waitingEntry], throttled := false, queueHigh := false }
    line := { site.line with state := .busy (.sending (entryFrame e (e.dest.getD 0))) } }

theorem siteSends_lineOk (content : EntryContent) (attempts : Nat) (dest : Addr) :
    LineOk (siteSends (sendingEntry content attempts dest)) :=
  ⟨by simp [siteSends, sendingEntry, waitingEntry, Entry.fresh], fun _ _ => .inr ⟨_, rfl⟩,
    by simp [siteSends, site, sitePlan], by simp [siteSends, site, State.reset], by simp [siteSends, site, State.reset]⟩

theorem siteSends_sends (e : Entry) : Sends (siteSends e) := ⟨rfl, _, rfl⟩

/-- The site while it waits for the receipt of the first of two entries. -/
def siteAwaits (e : Entry) : State := (siteSends e).setLineState (.busy .receiptWindow)

theorem siteAwaits_lineOk (content : EntryContent) (attempts : Nat) (dest : Addr) :
    LineOk (siteAwaits (sendingEntry content attempts dest)) :=
  ⟨(siteSends_lineOk content attempts dest).1, fun _ _ => .inl rfl, by simp [siteAwaits, siteSends, site, sitePlan],
    by simp [siteAwaits, siteSends, site, State.reset], by simp [siteAwaits, siteSends, site, State.reset]⟩

theorem siteAwaits_window (e : Entry) : InReceiptWindow (siteAwaits e) := ⟨rfl, rfl⟩

/-- The site sending a PAGE, with a second PAGE of the same pair behind it that shows another zone. -/
def siteTwins (band : CallClass) : State :=
  { siteSends (sendingEntry (.page sitePage) 1 112) with queue := { SendQueue.reset with
      entries := joinTail (Entry.fresh (.page { sitePage with zone := 9 }) band)
        [sendingEntry (.page sitePage) 1 112, waitingEntry] } }

/-- The site with a full queue: STOP entries, and one ROUTINE entry at the end. -/
def siteCrowded (last : EntryContent) (s : State) : State :=
  s.setEntries (List.replicate 23 { waitingEntry with band := .stop } ++ [Entry.fresh last .routine])

theorem site_hears : HearsFrames site := ⟨rfl, .inl rfl⟩

/-- The state that a command leaves. -/
def after (c : Instr) (s : State) : State :=
  match exec c s with
  | .next t => t
  | _ => s

/-! ## Well-formedness -/

def longBody : List Byte := List.replicate 9 0

theorem test_wf_refuses_long_bodies :
    Instr.wf (.raise 0 longBody) = false ∧ Instr.wf (.cancel 0 longBody) = false ∧
      Instr.wf (.pointHello 0 .head longBody) = false ∧ Instr.wf (.key 0 longBody) = false ∧
      Instr.wf (.sight 0 .head longBody) = false ∧ Instr.wf (.beaconHello 0 .head longBody) = false := by decide

theorem test_wf_takes_eight_bytes : Instr.wf (.raise 0 (List.replicate 8 0)) = true := by decide

/-- A frame that passes every check is no reception error. -/
theorem test_wf_refuses_a_good_frame_as_reception_error :
    Instr.wf (.receptionError { frame := Frame.make .urgent .key true (Zone.beacon 0) 1 [1, 0, 9, 1], framingError := false }) =
      false := by decide +kernel

theorem test_wf_takes_a_bad_check_byte :
    Instr.wf (.receptionError { frame := { Frame.make .urgent .key true (Zone.beacon 0) 1 [1, 0, 9, 1] with check := 0x55 },
                                framingError := false }) = true := by decide +kernel

theorem test_wf_bounds_the_ignored_locations :
    Instr.wf (.ignoredWrite 0x18 0) = false ∧ Instr.wf (.ignoredWrite 0x19 0) = true ∧
      Instr.wf (.ignoredWrite 0x1E 0) = true ∧ Instr.wf (.ignoredWrite 0x1F 0) = false := by decide

/-! ## Small steps, one or two of each family -/

theorem test_raise_merges_and_upgrades :
    ((after (.raise 0 [0, 2]) site).call 16).map (fun c => (c.cls, c.raiseCount, c.rung)) = some (.stop, 2, 0) ∧
      (after (.raise 0 [0, 2]) site).line.state = drives [0x82, 0x50] := by decide +kernel

theorem test_raise_makes_a_call_in_slot_15 :
    (after (.raise 0 [1, 0]) site).call 15 = some (raisedCall (.point 0) 0 .mechanical .routine) ∧
      (after (.raise 0 [1, 0]) site).tagOf 15 = { generation := 2, slot := 15 } ∧
      (after (.raise 0 [1, 0]) site).queue.entries.map (fun e => e.band) = [.urgent] := by decide +kernel

theorem test_cancel_closes_the_calls_of_its_point :
    ((after (.cancel 0 [0xFF]) site).call 16).map (fun c => c.closeReason) = some (some .cancelled) ∧
      (after (.cancel 0 [0xFF]) site).line.state = drives [0x83, 1] := by decide +kernel

theorem test_accept_grants_the_offer :
    ((after (.key 0 (keyBody (siteTag 1) 100 1)) site).call 1).map (fun c => (c.state, c.holder, c.timer.count)) =
      some (.accepted, some 0, 600) := by decide +kernel

theorem test_key_of_an_unknown_badge_latches :
    (after (.key 0 (keyBody (siteTag 1) 999 1)) site).roster.unknownBadge =
      { latched := true, badge := some 999, overrun := false } := by decide +kernel

theorem test_sight_moves_a_crew :
    ((after (.sight 3 .head [0, 106]) site).crew 6).map (fun c => c.lastSeen) = some (some 3) := by decide +kernel

theorem test_read_call_answers_24_bytes :
    (after .readCall (waits .readCall [0x41] site)).port.buffer.toList.take 10 =
      [0x41, 2, 2, 0, 0x10, 0, 0, 0xFF, 0xFF, 0xFF] := by decide +kernel

theorem test_find_calls_from_a_start_slot :
    (after .findCalls (waits .findCalls [0x08, 0xFF, 0xFF, 0, 0, 0, 4] site)).port.buffer[0] = 0x44 := by decide +kernel

theorem test_hold_withdraws_the_offers :
    ((after .hold (waits .hold [0x42] site)).call 2).map (fun c => (c.state, c.offerees, c.history.length)) =
      some (.waiting, [], 2) := by decide +kernel

theorem test_assign_pages_the_crew :
    ((after .assign (waits .assign [0x40, 0, 106] site)).queue.entries.map (fun e => e.isAssigned)) = [true] ∧
      ((after .assign (waits .assign [0x40, 0, 106] site)).crew 6).map (fun c => c.load) = some 1 := by decide +kernel

theorem test_enrol_takes_the_lowest_slot :
    ((after .enrol (waits .enrol [1, 0, 0x0F, 2, 16] site)).crew 8).map (fun c => (c.badge, c.home)) = some (0x100, 15) := by
  decide +kernel

theorem test_set_duty_off_hands_back :
    (after .setDuty (waits .setDuty [0, 104, 0] site)).port.buffer.toList.take 4 = [4, 1, 1, 2] ∧
      ((after .setDuty (waits .setDuty [0, 104, 0] site)).call 5).map (fun c => c.state) = some .waiting := by decide +kernel

theorem test_plan_write_is_closed :
    (after .planWrite (waits .planWrite [4, 0, 3] site)).port.result = .planClosed ∧
      (after .planWrite (waits .planWrite [4, 0, 3] State.reset)).plan.loadLimit = 3 := by decide +kernel

theorem test_dispatch_turn_serves_the_head :
    ((after .dispatchTurn site).call 16).map (fun c => (c.state, c.offerees)) = some (.offered, [2]) ∧
      (after .dispatchTurn site).disp.list = [0] ∧ (after .dispatchTurn site).queue.entries.length = 2 := by decide +kernel

theorem test_stop_call_sounds_the_horn :
    ((after .dispatchTurn (siteStop .hydraulic)).call 15).map (fun c => c.state) = some .unclaimed ∧
      (after .dispatchTurn (siteStop .hydraulic)).disp.horn = true := by decide +kernel

theorem test_travel_expiry_reclaims :
    ((after (.travelExpiry 3) site).call 3).map (fun c => (c.state, c.rung, c.attention)) = some (.waiting, 1, 0x30) := by
  decide +kernel

theorem test_tick_lowers_a_running_timer :
    ((after (.tick .whole) site).call 2).map (fun c => c.timer.count) = some 8 ∧
      ((after (.tick .whole) site).call 14).map (fun c => c.timer.count) = some 7 := by decide +kernel

/-- A tick is made for every owner, and each takes it in its own event; a second taking finds none. -/
theorem test_tick_reaches_one_owner_at_a_time :
    let made := after (.tick .divider) site
    (made.call 2).map (fun c => c.timer.count) = some 9 ∧
      ((after (.tick (.timer 2)) made).call 2).map (fun c => c.timer.count) = some 8 ∧
      ((after (.tick (.timer 2)) (after (.tick (.timer 2)) made)).call 2).map (fun c => c.timer.count) = some 8 ∧
      (after (.tick (.timer 2)) made).clock.tickDue.sightings[6] = 1 := by decide +kernel

/-- Two minutes made before either is taken are both taken. -/
theorem test_no_minute_is_lost :
    let count59 := fun s : State => { s with clock := { s.clock with minuteCount := 59 } }
    let twice := after (.tick .whole) (count59 (after (.tick .whole) (count59 site)))
    ((after (.minute .whole) (after (.minute .whole) twice)).crew 6).map (fun c => c.idle) = some 7 ∧
      (after (.minute (.age 0)) twice).clock.minuteDue.ages[0] = 1 := by decide +kernel

/-- A PAGE that lands stands as it was, and a second PAGE of its pair makes no second entry. -/
theorem test_landing_keeps_the_page_in_flight :
    let hold := fun band => (after .lineHold (siteTwins band)).queue.entries
    hold .stop = [{ sendingEntry (.page sitePage) 1 112 with inFlight := false }, waitingEntry] ∧
      hold .routine = hold .stop := by decide +kernel

/-- A LAMP that lands takes the states and the band of a second LAMP of its point. -/
theorem test_landing_rewrites_the_lamp_in_flight :
    let dark := { electrical := .dark, mechanical := .dark, hydraulic := .dark, crane := .dark : LampStates }
    let lit := { dark with crane := .paging }
    let e := sendingEntry (.lamp 0 dark) 1 16
    let hold := fun band => (after .lineHold (siteSends e |>.setEntries
      (joinTail (Entry.fresh (.lamp 0 lit) band) [e, waitingEntry]))).queue.entries
    hold .stop = [{ e with content := .lamp 0 lit, inFlight := false }, waitingEntry] ∧
      hold .routine = [waitingEntry, { e with content := .lamp 0 lit, band := .routine, inFlight := false }] := by
  decide +kernel

/-- A KEY that comes while its PAGE waits for its receipt grants the offer; the attempt ends after it, and its failure finds no
standing offer. -/
theorem test_key_in_the_receipt_window :
    let keyed := after (.key 0 (keyBody (siteTag 1) 100 1)) (siteAwaits (sendingEntry (.page sitePage) 2 112))
    keyed.line.state = drives [0x10] ∧ (keyed.call 1).map (fun c => (c.state, c.holder)) = some (.accepted, some 0) ∧
      keyed.queue.entries = [waitingEntry] ∧ keyed.line.answering[(0 : Zone)] = false := by
  decide +kernel

/-- A POINT HELLO that comes while a LAMP of the point waits for its receipt puts a second LAMP behind it, which stays when the
attempt ends after it: below the limit it supersedes the first, and at the limit the lamp-stale flag is set again. -/
theorem test_hello_in_the_receipt_window :
    let dark := { electrical := .dark, mechanical := .dark, hydraulic := .dark, crane := .dark : LampStates }
    let t := fun attempts => after (.pointHello 1 .head [])
      ((siteAwaits (sendingEntry (.lamp 1 dark) attempts 17)).setLampStale 1 true)
    (t 0).line.state = .busy .frameOver ∧ (t 0).queue.entries = [waitingEntry, Entry.fresh (.lamp 1 dark) .routine] ∧
      (t 2).queue = (t 0).queue ∧ (t 0).lampStale[(1 : Point)] = false ∧ (t 2).lampStale[(1 : Point)] = true := by
  decide +kernel

/-- An unenrolled badge named twice in one SIGHT is one update of its latch; two of them are two. -/
theorem test_sight_of_one_unknown_badge_twice :
    (after (.sight 3 .head [3, 231, 3, 231]) site).roster.unknownBadge = { latched := true, badge := some 999, overrun := false } ∧
      (after (.sight 3 .head [3, 231, 3, 232]) site).roster.unknownBadge =
        { latched := true, badge := some 1000, overrun := true } := by decide +kernel

theorem test_receipt_window_opens_at_the_end_of_the_frame :
    (after .frameSent (siteSends (sendingEntry (.page sitePage) 0 112))).line.state = .busy .receiptWindow ∧
      after (.bitFault { kind := .overdriven, inArbitrationField := false })
        (siteAwaits (sendingEntry (.page sitePage) 0 112)) = siteAwaits (sendingEntry (.page sitePage) 0 112) := by
  decide +kernel

theorem test_cold_reset_takes_no_command :
    (after (.powerOn .detectorHolds) site).resetLine = .coldReset ∧
      after .warmRestart (after (.powerOn .detectorHolds) site) = after (.powerOn .detectorHolds) site ∧
      after (.powerOn (.ends false)) (after (.powerOn .detectorHolds) site) = State.reset := by decide +kernel

theorem test_notice_take_presents_the_restart_first :
    (after .noticeTake site).port.dataLines = some 1 ∧ (after .noticeTake (after .noticeTake site)).port.dataLines = some 3 := by
  decide +kernel

theorem test_status_byte : (after .statusRead site).port.dataLines = some 0x4A := by decide +kernel

theorem test_lamp_frame_is_sent_and_delivered :
    (after (.receiptTaken { code := 0x22, data := 0, check := crc (bitsOf (0x22 : Byte)), framingError := false })
      (after .frameSent (siteSends (sendingEntry (.lamp 0 (site.lampStates 0)) 0 16)))).queue.entries = [waitingEntry] := by decide +kernel

theorem test_reset_and_restart_hold_the_calls :
    ((after .warmRestart (after .resetLineAssertion site)).call 1).map (fun c => (c.state, c.hold, c.offerees)) =
      some (.waiting, some .restart, []) ∧
      (after .warmRestart (after .resetLineAssertion site)).plan.phase = .openWarm := by decide +kernel

theorem test_fetch_word_spells_no_command : State.reset.withFetchWord 8 0 = State.reset := rfl

theorem test_step_runs_the_front_command : step (site.setPending [.lineHold]) = exec .lineHold site := rfl

/-! ## Witnesses: a state and operands that meet the hypotheses of each statement -/

theorem everyCall_at {s : State} {p : CallSlotNo → Call → Bool} (h : everyCall s p = true) :
    ∀ i c, s.call i = some c → p i c = true := everyCall_spec h

theorem witness_StepRunsFrontCommand : (site.setPending [.lineIdle, .autoClose]).pending = .lineIdle :: [.autoClose] := rfl

theorem witness_StepIdlesOrRunsToANextState : site.pending = [] := rfl

/-- The reset line low with the plan closed once, and low since power-on. -/
def siteLow : State := after .resetLineAssertion site
def lowFromPowerOn : State := after (.powerOn (.ends true)) site

theorem witness_ResetLineLowHaltsThePart :
    site.resetLine = .released ∧ siteLow.resetLine ≠ .released ∧ siteLow.resetLine ≠ .coldReset ∧
      lowFromPowerOn.resetLine ≠ .released ∧ (after (.powerOn .detectorHolds) site).resetLine = .coldReset := by
  decide +kernel

theorem witness_WarmRestartHoldsLiveCalls :
    siteLow.resetLine = .low ∧ siteLow.call 15 = none ∧
      (∃ c, siteLow.call 8 = some c ∧ c.state = .closed) ∧
      (∃ c, siteLow.call 3 = some c ∧ c.state ≠ .closed ∧ c.state ≠ .offered) ∧
      (∃ c r, siteLow.call 1 = some c ∧ c.state = .offered ∧ siteLow.rungOf c = some r ∧ r.mode = .single 2) ∧
      ∃ c r, siteLow.call 2 = some c ∧ c.state = .offered ∧ siteLow.rungOf c = some r ∧ r.mode = .all :=
  ⟨rfl, rfl, ⟨_, rfl, rfl⟩, ⟨_, rfl, by decide, by decide⟩, ⟨_, _, rfl, rfl, rfl, rfl⟩, ⟨_, _, rfl, rfl, rfl, rfl⟩⟩

theorem witness_WarmRestartAtTheOtherBlocks :
    siteLow.resetLine = .low ∧ siteLow.plan.firstClose = true ∧
      (after .resetLineAssertion State.reset).resetLine = .low ∧
      (after .resetLineAssertion State.reset).plan.firstClose = false ∧ lowFromPowerOn.resetLine = .lowSincePowerOn := by
  decide +kernel

/-- The site with every slot holding a call that cannot be reclaimed, and with slot 8 alone to reclaim. -/
def siteFull : State :=
  { site with
    calls := { site.calls with slots := Vector.ofFn (fun _ => { generation := 0, call := some (callOf .attending 0 .electrical .routine) }) } }
def siteReclaim : State := siteFull.setSlot 8 { generation := 3, call := siteCall 8 }

theorem full_is_full : TableIsFull siteFull := by
  intro i
  have h : siteFull.call i = some (callOf .attending 0 .electrical .routine) := by
    simp [siteFull, State.call, State.slot]
  exact ⟨_, h, by simp [callOf]⟩

theorem witness_RefusedRaisesChangeNoCall :
    HearsFrames site ∧ site.lampStale[(0 : Point)] = false ∧ { site with plan := SitePlan.powerOn }.plan.phase ≠ .closed ∧
      site.plan.phase = .closed ∧ site.plan.points[(1 : Point)].enabled = false ∧
      site.plan.points[(0 : Point)] = { zone := some 0, enabled := true } ∧ site.ladder .crane .stop = none ∧
      site.ladder .mechanical .stop ≠ none ∧ TableIsFull siteFull ∧ NoLiveCall siteFull (.point 0) .mechanical := by
  refine ⟨site_hears, by decide +kernel, by decide +kernel, rfl, by decide +kernel, by decide +kernel, by decide +kernel,
    by decide +kernel, full_is_full, fun j d h ho => ?_⟩
  obtain ⟨c, hc, _⟩ := full_is_full j
  have e : siteFull.call j = some (callOf .attending 0 .electrical .routine) := by simp [siteFull, State.call, State.slot]
  rw [e] at h
  cases h
  simp [callOf, raisedCall] at ho

theorem site_liveCall : IsLiveCall site (.point 0) .electrical 16
    { callOf .waiting 0 .electrical .urgent with origin := .point 0 } := by
  refine ⟨by decide +kernel, by decide, rfl, rfl, fun j d h hs ho _ => ?_⟩
  have := everyCall_at (s := site) (p := fun j d => d.origin != .point 0 || j == 16) (by decide +kernel) j d h
  simpa [ho] using this

theorem witness_RaiseMergesIntoTheLiveCall :
    HearsFrames site ∧ site.lampStale[(0 : Point)] = false ∧ site.plan.phase = .closed ∧
      site.plan.points[(0 : Point)] = { zone := some 0, enabled := true } ∧ site.ladder .electrical .urgent ≠ none ∧
      IsLiveCall site (.point 0) .electrical 16 { callOf .waiting 0 .electrical .urgent with origin := .point 0 } ∧
      classRank .urgent ≤ classRank .urgent :=
  ⟨site_hears, by decide +kernel, rfl, by decide +kernel, by decide +kernel, site_liveCall, by decide⟩

theorem site_noCall (t : Trade) (h : everyCall site (fun _ d => d.origin != .point 0 || d.trade != t) = true) :
    NoLiveCall site (.point 0) t := by
  intro j d hd ho ht
  have := everyCall_at h j d hd
  simp [ho, ht] at this

theorem witness_RaiseMakesANewCall :
    HearsFrames site ∧ site.plan.phase = .closed ∧ site.plan.points[(0 : Point)] = { zone := some 0, enabled := true } ∧
      site.ladder .mechanical .stop ≠ none ∧ NoLiveCall site (.point 0) .mechanical ∧ TakesSlot site 15 ∧
      TakesSlot siteReclaim 8 ∧ DispatchOk site ∧ site.queue.entries.length < 24 := by
  suffices h : TakesSlot siteReclaim 8 by
    exact ⟨site_hears, rfl, by decide +kernel, by decide +kernel, site_noCall _ (by decide +kernel),
      .inl ⟨rfl, by decide +kernel⟩, h, site_dispatch, by decide +kernel⟩
  refine .inr ⟨by decide +kernel, ⟨_, rfl, rfl, rfl⟩, fun j d hj hd h => ?_⟩
  have := everyCall_at (s := siteReclaim) (p := fun j d => decide (8 ≤ j) || !(d.state == .closed && d.reported))
    (by decide +kernel) j d hd
  simp only [h.1, h.2, beq_self_eq_true, Bool.and_true, Bool.not_true, Bool.or_false, decide_eq_true_eq] at this
  exact absurd hj (Fin.not_lt.mpr this)

theorem witness_RaiseOfHigherClassUpgrades :
    BindingOk site ∧ DispatchOk site ∧ HearsFrames site ∧ site.plan.phase = .closed ∧
      site.plan.points[(0 : Point)] = { zone := some 0, enabled := true } ∧
      site.ladder .electrical .stop = some electricalLadder ∧
      IsLiveCall site (.point 0) .electrical 16 { callOf .waiting 0 .electrical .urgent with origin := .point 0 } ∧
      classRank .urgent < classRank .stop ∧ BadgesOk site ∧
      RoomFor site { callOf .waiting 0 .electrical .urgent with origin := .point 0 } 2 :=
  ⟨site_binding, site_dispatch, site_hears, rfl, by decide +kernel, by decide +kernel, site_liveCall, by decide, site_badges,
    by unfold RoomFor; decide +kernel⟩

theorem witness_CancelClosesTheNamedCalls : BindingOk site ∧ HearsFrames site ∧ BadgesOk site ∧
    site.queue.entries.length + (([16] : List CallSlotNo).map (fun i => (site.offereesOf i).length + 1)).sum + 1 ≤ 24 :=
  ⟨site_binding, site_hears, site_badges, by decide +kernel⟩

/-- The site with the call of point 0 in the STOP class. -/
def siteStopLamp : State :=
  site.setSlot 16 { generation := 1, call := some { callOf .waiting 0 .electrical .stop with origin := .point 0 } }

/-- Every branch of a lamp update: a pending LAMP of the band and of another, room, a refusal, and a displaced entry of each
kind. -/
theorem witness_LampUpdatesShowTheLiveCalls :
    HearsFrames site ∧ site.lampBand 0 = .urgent ∧ siteStopLamp.lampBand 0 = .stop ∧
      (Entry.fresh (.lamp 0 (site.lampStates 0)) .urgent).pendingLamp 0 = true ∧
      (∀ x ∈ site.queue.entries, x.pendingLamp 0 = false) ∧ site.queue.entries.length < 24 ∧
      (∀ last ∈ ([.page sitePage, .withdraw { tag := siteTag 3, badge := 103, reason := .closed, cls := .routine },
          .lamp 5 (site.lampStates 5)] : List EntryContent),
        24 ≤ (siteCrowded last siteStopLamp).queue.entries.length ∧ (siteCrowded last siteStopLamp).lampBand 0 = .stop ∧
          (siteCrowded last siteStopLamp).queue.entries =
            List.replicate 23 { waitingEntry with band := .stop } ++ Entry.fresh last .routine :: [] ∧
          (Entry.fresh last .routine).pendingRoutine = true) ∧
      (site.setLampStale 0 true).lampStale[(0 : Point)] = true := by
  refine ⟨site_hears, ?_⟩
  decide +kernel

theorem witness_LampUpdates_ofAnyCommand : ∃ t, BindingOk site ∧
    exec (.raise 0 (raiseBody .mechanical .routine)) site = .next t ∧
      ∃ i gen st cl, ¬ (LampShows site 0 i gen st cl ↔ LampShows t 0 i gen st cl) := by
  refine ⟨after (.raise 0 (raiseBody .mechanical .routine)) site, site_binding, rfl, 15, 2, .waiting, .routine, fun h => ?_⟩
  obtain ⟨c, hc, _⟩ := h.mpr ⟨raisedCall (.point 0) 0 .mechanical .routine, by decide +kernel, by decide, rfl,
    by decide +kernel, rfl, rfl⟩
  exact nomatch hc

/-- A frame of a lamp-stale point that changes none of its calls, and one that makes a call. -/
theorem witness_StaleFramesWithAndWithoutAChange :
    (∀ i gen st cl, LampShows (site.setLampStale 0 true) 0 i gen st cl ↔
      LampShows ((site.setLampStale 0 false).setLineState (drives [0x1F])) 0 i gen st cl) ∧
      ∃ i gen st cl, ¬ (LampShows (site.setLampStale 0 true) 0 i gen st cl ↔
        LampShows (after (.raise 0 (raiseBody .mechanical .routine)) (site.setLampStale 0 false)) 0 i gen st cl) := by
  refine ⟨fun _ _ _ _ => Iff.rfl, 15, 2, .waiting, .routine, fun h => ?_⟩
  obtain ⟨c, hc, _⟩ := h.mpr ⟨raisedCall (.point 0) 0 .mechanical .routine, by decide +kernel, by decide, rfl,
    by decide +kernel, rfl, rfl⟩
  exact nomatch hc

theorem witness_BodyErrorsAreAnsweredBadBody :
    HearsFrames site ∧ site.lampStale[(0 : Point)] = false ∧ (∀ tr cl, ([0, 3] : List Byte) ≠ raiseBody tr cl) ∧
      ([4] : List Byte) ≠ [0xFF] ∧ (∀ tr : Trade, ([4] : List Byte) ≠ [byteOf (tradeIndex tr).val]) ∧
      ∀ tag b (n : Nat), b ≠ 0 → b ≠ 0xFFFF → 1 ≤ n → n ≤ 4 → ([] : List Byte) ≠ keyBody tag b (byteOf n) := by
  refine ⟨site_hears, by decide +kernel, ?_, by decide, ?_, fun tag b n _ _ _ _ h => by simp [keyBody] at h⟩
  · intro tr cl; cases tr <;> cases cl <;> decide
  · intro tr; cases tr <;> decide

theorem witness_SightRecordsEachBadge :
    HearsFrames site ∧ site.enrolled 106 = some 6 ∧ site.enrolled 999 = none ∧ (999 : Badge) ≠ 0 ∧ (999 : Badge) ≠ 0xFFFF ∧
      site.enrolled 0 = none ∧ site.enrolled 0xFFFF = none := by
  refine ⟨site_hears, ?_⟩; decide +kernel

theorem witness_BeaconHelloChangesNoRecord : HearsFrames site := site_hears

theorem witness_KeysThatChangeNoCall :
    HearsFrames site ∧ site.enrolled 999 = none ∧ site.enrolled 103 = some 3 ∧ siteTag 15 = site.tagOf (siteTag 15).slot ∧
      site.call 15 = none ∧ ({ generation := 2, slot := 3 } : Tag) ≠ site.tagOf 3 ∧ siteTag 3 = site.tagOf 3 ∧
      (∃ c, site.call 3 = some c ∧ c.holder = some 3) ∧
      (∃ c, site.call 5 = some c ∧ c.holder ≠ some 3 ∧ 3 ∉ c.offerees ∧ c.state = .accepted) ∧
      (∃ c, site.call 0 = some c ∧ c.holder ≠ some 3 ∧ 3 ∉ c.offerees ∧ c.state ≠ .accepted ∧ c.state ≠ .attending) ∧
      (∃ c, site.call 6 = some c ∧ c.holder = some 5 ∧ c.state ≠ .accepted) := by
  refine ⟨site_hears, by decide +kernel, by decide +kernel, by decide +kernel, rfl, by decide +kernel, by decide +kernel,
    ⟨_, rfl, by decide⟩, ⟨_, rfl, by decide⟩, ⟨_, rfl, by decide⟩, ⟨_, rfl, by decide⟩⟩

/-- A frame's key at the site: the crew and the call that it names. -/
theorem site_keyed (i : CallSlotNo) (b : Badge) (k : CrewSlotNo) (c : Call) (cr : Crew) (h : site.enrolled b = some k)
    (hk : site.crew k = some cr) (hc : site.call i = some c) :
    BindingOk site ∧ BadgesOk site ∧ HearsFrames site ∧ site.enrolled b = some k ∧ site.crew k = some cr ∧
      site.call i = some c := ⟨site_binding, site_badges, site_hears, h, hk, hc⟩

theorem witness_AcceptBelowTheLoadLimitIsGranted : ∃ c cr, site.enrolled 100 = some 0 ∧ site.crew 0 = some cr ∧
    site.call 1 = some c ∧ 0 ∈ c.offerees ∧ cr.load < site.plan.loadLimit ∧ RoomFor site c 2 :=
  ⟨_, _, by decide +kernel, rfl, rfl, by decide, by decide +kernel, by unfold RoomFor; decide +kernel⟩

/-- Crew 4 holds two calls; with a load limit of 2 it is at the limit. -/
theorem witness_DeclineAndLoadedAcceptEndTheOffer :
    (∃ c cr, site.enrolled 104 = some 4 ∧ site.crew 4 = some cr ∧ site.call 2 = some c ∧ 4 ∈ c.offerees) ∧
      ∃ c cr, BindingOk { site with plan := { sitePlan with loadLimit := 2 } } ∧
        BadgesOk { site with plan := { sitePlan with loadLimit := 2 } } ∧ site.call 2 = some c ∧ site.crew 4 = some cr ∧
        4 ∈ c.offerees ∧ 2 ≤ cr.load :=
  ⟨⟨_, _, by decide +kernel, rfl, rfl, by decide⟩,
    ⟨_, _, binding_of_same rfl rfl site_binding, badges_of_same rfl site_badges, rfl, rfl, by decide, by decide⟩⟩

theorem witness_OnSiteAndClearFromTheHolder : ∃ c cr, BindingOk site ∧ HearsFrames site ∧ site.enrolled 103 = some 3 ∧
    site.crew 3 = some cr ∧ site.call 3 = some c ∧ c.holder = some 3 ∧ c.state = .accepted :=
  ⟨_, _, site_binding, site_hears, by decide +kernel, rfl, rfl, rfl, rfl⟩

def heardOf (length : BitVec 4) (dest : Addr) (check : Byte) : HeardFrame :=
  { frame := { classCode := 1, kindCode := 1, receiptWanted := true, source := 112, dest := dest, length := length,
               body := [], check := check }, framingError := false }

theorem witness_ReceptionErrorsAreCountedInOrder :
    HearsFrames site ∧ 8 < (heardOf 9 1 0).frame.length.toNat ∧
      (heardOf 8 1 0).frame.body.length ≠ (heardOf 8 1 0).frame.length.toNat ∧
      (heardOf 0 1 0).frame.check ≠ crc (heardOf 0 1 0).frame.bits ∧
      (heardOf 0 5 (crc (heardOf 0 5 0).frame.bits)).frame.check = crc (heardOf 0 5 0).frame.bits ∧
      (heardOf 0 0 (crc (heardOf 0 0 0).frame.bits)).frame.check = crc (heardOf 0 0 0).frame.bits ∧
      (heardOf 0 0 0).frame.receiptWanted = true := by
  refine ⟨site_hears, ?_⟩; decide +kernel

theorem witness_FieldFramesAreReadAsTheirCommands :
    ∃ f, Instr.wf (.key 0 [0x41, 0, 100, 1]) = true ∧ Instr.fieldFrame .urgent (.key 0 [0x41, 0, 100, 1]) = some f ∧
      ∀ h, Instr.key 0 [0x41, 0, 100, 1] ≠ .receptionError h := ⟨_, by decide, rfl, fun _ h => nomatch h⟩

theorem witness_PortWritesByPortState :
    site.resetLine = .released ∧ site.port.busy = false ∧ (waits .hold [] site).port.busy = true ∧
      (let s := { site with port := { site.port with busy := true, code := 0x17 } }
       s.port.busy = true ∧ s.roster.walk.progress = .idle ∧ 0x16 < s.port.code.toNat) := by decide +kernel

/-- In READY and in BUSY, with INTL low and released. -/
theorem witness_ReadCyclesAndIntlShowTheState :
    site.resetLine = .released ∧ site.port.busy = false ∧ site.intlLow = true ∧
      (let s := { waits .hold [7] site with port := { (waits .hold [7] site).port with restart := false, mask := 0 } }
       s.resetLine = .released ∧ s.port.busy = true ∧ s.intlLow = false ∧ windowRead s 0 = 7 ∧ windowRead s 0x18 = 4 ∧
         windowRead s 0x1F = 0) := by decide +kernel

/-- The notice n is the chosen one when it is the first of the pending, unmasked ones. -/
theorem chosen_of_next {s : State} {n : NoticeSource} (higher lower : List NoticeSource)
    (h : noticeOrder = higher ++ n :: lower) (hp : s.noticePending n = true) (hu : s.unmasked n = true)
    (hn : higher.all (fun m => !(s.noticePending m && s.unmasked m)) = true) : Chosen s n := by
  refine ⟨higher, lower, h, (holds_iff s n).mp hp, (enabled_iff s n).mp hu, fun m hm hh => ?_⟩
  have := List.all_eq_true.mp hn m hm
  simp [(holds_iff s m).mpr hh.1, (enabled_iff s m).mpr hh.2] at this

/-- The site with the restart notice taken, and with one latch set besides. -/
def siteQuiet : State := { site with port := { site.port with restart := false, mask := 0x8F } }

theorem witness_NoticeTakePresentsAndClearsTheLatch :
    (∀ n, Holds siteQuiet n → ¬ Enabled siteQuiet n) ∧ Chosen site .restart ∧
      Chosen { siteQuiet with line := { siteQuiet.line with lineStuck := true } } .lineStuck ∧
      Chosen { siteQuiet with line := { siteQuiet.line with lineEvent := { latched := true, event := .hold } } }
        .lineEvent ∧
      Chosen { siteQuiet with calls := { siteQuiet.calls with
        tableFull := { latched := true, origin := some (.desk 0), count := 255 } } } .tableFull ∧
      Chosen { siteQuiet with roster := { siteQuiet.roster with
        unknownBadge := { latched := true, badge := some 999, overrun := true } } } .unknownBadge ∧
      Chosen { siteQuiet with queue := { siteQuiet.queue with queueHigh := true } } .queueHigh ∧
      Chosen { siteQuiet with roster := { siteQuiet.roster with
        shiftCutDone := { latched := true, switched := 48, withdrawn := 0, handedBack := 0 } } } .shiftCutDone ∧
      Chosen { siteQuiet with plan := { siteQuiet.plan with autoClosed := true } } .planAutoClosed := by
  have quiet : ∀ n, ¬ (siteQuiet.noticePending n = true ∧ siteQuiet.unmasked n = true) := by
    intro n; cases n <;> decide +kernel
  refine ⟨fun n hp hu => quiet n ⟨(holds_iff _ n).mpr hp, (enabled_iff _ n).mpr hu⟩, chosen_of_next [] _ rfl ?_ ?_ ?_, chosen_of_next [_] _ rfl ?_ ?_ ?_,
    chosen_of_next [_, _, _] _ rfl ?_ ?_ ?_, chosen_of_next [_, _, _, _] _ rfl ?_ ?_ ?_,
    chosen_of_next [_, _, _, _, _, _] _ rfl ?_ ?_ ?_, chosen_of_next [_, _, _, _, _, _, _] _ rfl ?_ ?_ ?_,
    chosen_of_next [_, _, _, _, _, _, _, _, _] _ rfl ?_ ?_ ?_, chosen_of_next [_, _, _, _, _, _, _, _, _, _] [] rfl ?_ ?_ ?_⟩
    <;> decide +kernel

theorem witness_NoticeTakeHandsOverTheFirstCallOfTheClass : ∃ c,
    Chosen { site with port := { site.port with restart := false } } .stopCall ∧
      site.calls.attentionQueue = [0] ++ 7 :: [] ∧ site.call 7 = some c ∧ c.cls = .stop ∧
      ∀ j ∈ ([0] : List CallSlotNo), ∀ d, site.call j = some d → d.cls ≠ .stop := by
  refine ⟨_, chosen_of_next [_, _] _ rfl ?_ ?_ ?_, rfl, rfl, rfl, fun j hj d hd => ?_⟩
  · decide +kernel
  · decide +kernel
  · decide +kernel
  · have := everyCall_at (s := site) (p := fun j d => j != 0 || d.cls != .stop) (by decide +kernel) j d hd
    simp at hj
    simpa [hj] using this

theorem witness_ClosedPlanCommandsAreRefusedInAnOpenPlan :
    (waits .hold [] State.reset).plan.phase ≠ .closed ∧
      CommandWaits HostCommand.hold.code (waits .hold [] State.reset) :=
  ⟨by simp [waits, State.reset, SitePlan.powerOn], waits_waits _ _ _ rfl rfl⟩

theorem witness_StaleAndVacantTagsAreRefused :
    CommandWaits HostCommand.hold.code (waits .hold [0x83] site) ∧ site.plan.phase = .closed ∧
      (site.slot (Tag.ofByte 0x83).slot).generation ≠ (Tag.ofByte 0x83).generation ∧
      (site.slot (Tag.ofByte 0x4F).slot).generation = (Tag.ofByte 0x4F).generation ∧
      site.call (Tag.ofByte 0x4F).slot = none ∧ badgeValid (word16 0 1) = true ∧ badgeValid (word16 0xFF 0xFE) = true :=
  ⟨waits_waits _ _ _ rfl rfl, rfl, by decide +kernel, by decide +kernel, by decide +kernel, by decide, by decide⟩

theorem witness_LineStateAndSilenceHorn :
    CommandWaits 0x16 (waits .lineState [] site) ∧ CommandWaits 0x15 (waits .silenceHorn [] site) :=
  ⟨waits_waits .lineState _ _ rfl rfl, waits_waits .silenceHorn _ _ rfl rfl⟩

theorem witness_ReadCallAnswersTheRecord : ∃ c, Named .readCall [] 2 c := ⟨_, named _ _ _ _ rfl⟩

theorem witness_ReadCrewAnswersTheRecord :
    CommandWaits 0x0E (waits .readCrew [0, 0, 106] site) ∧ CommandWaits 0x0E (waits .readCrew [1, 47] site) ∧
      (∃ c, site.crew 6 = some c) ∧ badgeValid (word16 0 106) = true ∧ site.enrolled (word16 0 106) = some 6 ∧
      badgeValid (word16 0xFF 0xFF) = false ∧ (48 : Nat) ≤ (48 : Byte).toNat ∧ site.crew 47 = none ∧
      site.enrolled (word16 3 231) = none :=
  ⟨waits_waits .readCrew _ _ rfl rfl, waits_waits .readCrew _ _ rfl rfl, ⟨_, rfl⟩, by decide, by decide +kernel, by decide,
    by decide, rfl, by decide +kernel⟩

/-- The search for ACCEPTED calls from slot 4 upwards. -/
def acceptedFrom4 : CallFilter := { states := 0x08, trade := none, cls := none, origin := none, badge := none, start := 4 }

theorem witness_FindCallsAnswersTheFirstMatch :
    CommandWaits 0x03 (waits .findCalls [0x08, 0xFF, 0xFF, 0, 0, 0, 4] site) ∧
      (waits .findCalls [0x08, 0xFF, 0xFF, 0, 0, 0, 4] site).arg 6 = byteOf acceptedFrom4.start.val ∧
      (∃ c, site.call 4 = some c ∧ Matches site acceptedFrom4 c ∧ acceptedFrom4.start ≤ 4 ∧
        ∀ j d, acceptedFrom4.start ≤ j → j < 4 → site.call j = some d → ¬ Matches site acceptedFrom4 d) ∧
      (∀ j d, (63 : CallSlotNo) ≤ j → site.call j = some d → ¬ Matches site { acceptedFrom4 with start := 63 } d) ∧
      (3 < (4 : Byte).toNat ∧ (4 : Byte) ≠ 0xFF) ∧ 63 < (64 : Byte).toNat := by
  refine ⟨waits_waits .findCalls _ _ rfl rfl, by decide +kernel, ⟨_, rfl, ?_, by decide, fun j d h1 h2 => ?_⟩,
    fun j d h1 hd => ?_, by decide, by decide⟩
  · refine ⟨.inr (by decide), ?_, ?_, ?_, ?_⟩ <;> (intro _ h; exact nomatch h)
  · exact absurd (Nat.lt_of_le_of_lt h1 h2) (by decide)
  · have := everyCall_at (s := site) (p := fun j _ => decide (j < 63)) (by decide +kernel) j d hd
    simp only [decide_eq_true_eq] at this
    exact absurd this (Fin.not_lt.mpr h1)

theorem witness_HostRaiseMergesRefusesOrMakesACall :
    CommandWaits 0x01 (waits .hostRaise [1, 16, 0, 0] site) ∧ site.plan.phase = .closed ∧
      (8 : Nat) < (9 : Byte).toNat ∧ (byteOf 1 : Byte) = originByte (.desk 0) ∧ (16 : Byte) = zoneByte (some 15) ∧
      site.ladder .crane .routine = none ∧ site.ladder .electrical .routine ≠ none ∧
      (∃ c, IsLiveCall site (.desk 0) .electrical 0 c ∧ classRank .routine ≤ classRank c.cls ∧
        classRank c.cls < classRank .stop) ∧
      TableIsFull siteFull ∧ TakesSlot site 15 := by
  refine ⟨waits_waits .hostRaise _ _ rfl rfl, rfl, by decide, by decide, by decide, by decide +kernel, by decide +kernel,
    ⟨_, ⟨rfl, by decide, rfl, rfl, fun j d h hs ho ht => ?_⟩, by decide, by decide⟩, full_is_full,
    .inl ⟨rfl, by decide +kernel⟩⟩
  have := everyCall_at (s := site)
    (p := fun j d => d.state == .closed || d.origin != .desk 0 || d.trade != .electrical || j == 0) (by decide +kernel) j d h
  simpa [hs, ho, ht] using this

/-- A call that is the only one of its desk and trade is its live call. -/
theorem site_deskCall {i : CallSlotNo} {c : Call} {d : Fin 8} (h : site.call i = some c) (hs : c.state ≠ .closed)
    (hd : c.origin = .desk d)
    (hu : everyCall site (fun j x => x.origin != .desk d || x.trade != c.trade || j == i) = true) :
    IsLiveCall site (.desk d) c.trade i c :=
  ⟨h, hs, hd, rfl, fun j x hx _ ho ht => by simpa [ho, ht] using everyCall_at hu j x hx⟩

/-- Desk calls that an upgrade finds OFFERED, ACCEPTED, ATTENDING and held in UNCLAIMED. -/
theorem witness_HostRaiseUpgradesByTheState :
    (∃ c, IsLiveCall site (.desk 2) .electrical 2 c ∧ c.state = .offered ∧ classRank c.cls < classRank .stop ∧
      RoomFor site c 2) ∧
      (∃ c, IsLiveCall site (.desk 3) .electrical 3 c ∧ c.state = .accepted ∧ classRank c.cls < classRank .stop) ∧
      (∃ c, IsLiveCall site (.desk 6) .electrical 6 c ∧ c.state = .attending ∧ classRank c.cls < classRank .stop) ∧
      ∃ c, IsLiveCall site (.desk 3) .mechanical 11 c ∧ c.state = .unclaimed ∧ c.hold ≠ none ∧
        classRank c.cls < classRank .stop := by
  refine ⟨⟨_, site_deskCall (i := 2) (d := 2) rfl ?_ rfl ?_, rfl, ?_, ?_⟩,
    ⟨_, site_deskCall (i := 3) (d := 3) rfl ?_ rfl ?_, rfl, ?_⟩, ⟨_, site_deskCall (i := 6) (d := 6) rfl ?_ rfl ?_, rfl, ?_⟩,
    ⟨_, site_deskCall (i := 11) (d := 3) rfl ?_ rfl ?_, rfl, ?_, ?_⟩⟩
  all_goals first | decide +kernel | (unfold RoomFor; decide +kernel)

theorem witness_HoldByTheStateOfTheCall :
    (∃ c, Named .hold [] 8 c ∧ c.state = .closed) ∧ (∃ c, Named .hold [] 9 c ∧ c.state ≠ .closed ∧ c.hold ≠ none) ∧
      (∃ c, Named .hold [] 3 c ∧ c.hold = none ∧ c.state = .accepted) ∧
      (∃ c, Named .hold [] 6 c ∧ c.hold = none ∧ c.state = .attending) ∧
      (∃ c, Named .hold [] 0 c ∧ c.hold = none ∧ c.state = .waiting) ∧
      (∃ c, Named .hold [] 7 c ∧ c.hold = none ∧ c.state = .unclaimed) ∧
      ∃ c, Named .hold [] 2 c ∧ c.hold = none ∧ c.state = .offered ∧ c.offerees.length = 2 ∧
        site.queue.entries.length + c.offerees.length + 2 ≤ 24 := by
  refine ⟨⟨_, named _ _ _ _ rfl, ?_⟩, ⟨_, named _ _ _ _ rfl, ?_⟩, ⟨_, named _ _ _ _ rfl, ?_⟩, ⟨_, named _ _ _ _ rfl, ?_⟩,
    ⟨_, named _ _ _ _ rfl, ?_⟩, ⟨_, named _ _ _ _ rfl, ?_⟩, ⟨_, named _ _ _ _ rfl, ?_⟩⟩ <;>
    decide +kernel

theorem witness_ResumeByTheStateOfTheCall :
    (∃ c, Named .resume [] 8 c ∧ c.state = .closed) ∧ (∃ c, Named .resume [] 0 c ∧ c.hold ≠ some .command) ∧
      (∃ c, Named .resume [] 9 c ∧ c.hold = some .command ∧ c.state = .waiting) ∧
      (∃ c, Named .resume [] 13 c ∧ c.hold = some .command ∧ c.state = .attending ∧ c.timer.mode = .none) ∧
      (∃ c, Named .resume [] 14 c ∧ c.hold = some .command ∧ c.state = .accepted ∧ c.timer.count ≠ 0) ∧
      (∃ c, Named .resume [] 12 c ∧ c.hold = some .command ∧ c.state = .unclaimed ∧ c.timer.count ≠ 0) ∧
      (∃ c, Named .resume [] 10 c ∧ c.hold = some .command ∧ c.state = .accepted ∧ c.timer.mode = .travel ∧
        c.timer.count = 0 ∧ c.holder = some 5 ∧ site.ladderOf c = some hydraulicLadder) ∧
      ∃ c, Named .resume [] 11 c ∧ c.hold = some .command ∧ c.state = .unclaimed ∧ c.timer.count = 0 := by
  refine ⟨⟨_, named _ _ _ _ rfl, ?_⟩, ⟨_, named _ _ _ _ rfl, ?_⟩, ⟨_, named _ _ _ _ rfl, ?_⟩, ⟨_, named _ _ _ _ rfl, ?_⟩,
    ⟨_, named _ _ _ _ rfl, ?_⟩, ⟨_, named _ _ _ _ rfl, ?_⟩, ⟨_, named _ _ _ _ rfl, ?_⟩, ⟨_, named _ _ _ _ rfl, ?_⟩⟩ <;>
    decide +kernel

/-- A held ACCEPTED call whose frozen count is 0 and whose ladder reclaims. -/
def heldOverdue : Call :=
  timed .travel 0 false { callOf .accepted 2 .electrical .routine with holder := some 5, hold := some .command }

theorem witness_ResumeReclaims : ∃ c cr,
    let s := site.setSlot 10 { generation := 1, call := some heldOverdue }
    BindingOk s ∧ s.call 10 = some c ∧ c.state = .accepted ∧ c.hold = some .command ∧ c.timer.mode = .travel ∧
      c.timer.count = 0 ∧ c.holder = some 5 ∧ s.crew 5 = some cr ∧ s.ladderOf c = some electricalLadder ∧
      electricalLadder.reclaim = true ∧ RoomFor s c 2 :=
  ⟨_, _, bindingOk_of_check (by decide +kernel), rfl, rfl, rfl, rfl, rfl, rfl, rfl, rfl, rfl,
    by unfold RoomFor; decide +kernel⟩

theorem witness_CloseCallAndRetire :
    (∃ c, Named .closeCall [] 8 c ∧ c.state = .closed) ∧ (∃ c, Named .closeCall [] 4 c ∧ c.state ≠ .closed) ∧
      (∃ c, Named .retire [] 4 c ∧ c.state ≠ .closed) ∧ ∃ c, Named .retire [] 8 c ∧ c.state = .closed := by
  refine ⟨⟨_, named _ _ _ _ rfl, ?_⟩, ⟨_, named _ _ _ _ rfl, ?_⟩, ⟨_, named _ _ _ _ rfl, ?_⟩, ⟨_, named _ _ _ _ rfl, ?_⟩⟩ <;>
    decide

theorem witness_AssignChecksThenMakesTheHolder :
    badgeValid (word16 0 0) = false ∧ badgeValid (word16 0 106) = true ∧ badgeValid (word16 3 231) = true ∧
      (∃ c, Named .assign [0, 106] 3 c ∧ c.state = .accepted) ∧
      (∃ c, Named .assign [0, 106] 9 c ∧ c.state = .waiting ∧ c.hold ≠ none) ∧
      (∃ c, Named .assign [3, 231] 0 c ∧ c.state = .waiting ∧ c.hold = none ∧ site.enrolled (word16 3 231) = none) ∧
      (∃ cr, site.enrolled (word16 0 107) = some 7 ∧ site.crew 7 = some cr ∧ cr.duty = .off) ∧
      (∃ cr, site.enrolled (word16 0 105) = some 5 ∧ site.crew 5 = some cr ∧ cr.duty = .on ∧ site.plan.loadLimit ≤ cr.load) ∧
      (∃ c cr, Named .assign [0, 104] 2 c ∧ c.state = .offered ∧ c.hold = none ∧ site.enrolled (word16 0 104) = some 4 ∧
        site.crew 4 = some cr ∧ cr.duty = .on ∧ cr.load < site.plan.loadLimit ∧
        site.queue.entries.length + c.offerees.length + 4 ≤ 24) ∧
      (∃ v r, site.call 2 = some v ∧ site.rungOf v = some r ∧ (siteCrew 4).bind (fun cr => cr.offer) = some (site.tagOf 2)) ∧
      ∃ c, Named .assign [0, 104] 7 c ∧ c.state = .unclaimed ∧ c.hold = none ∧ RoomFor site c 4 := by
  refine ⟨by decide, by decide, by decide, ⟨_, named _ _ _ _ rfl, ?_⟩, ⟨_, named _ _ _ _ rfl, ?_⟩,
    ⟨_, named _ _ _ _ rfl, ?_⟩, ⟨_, by decide +kernel, rfl, ?_⟩, ⟨_, by decide +kernel, rfl, ?_⟩,
    ⟨_, _, named _ _ _ _ rfl, rfl, rfl, by decide +kernel, rfl, ?_⟩, ⟨_, _, rfl, rfl, by decide +kernel⟩,
    ⟨_, named _ _ _ _ rfl, by unfold RoomFor; decide +kernel⟩⟩ <;> decide +kernel

theorem witness_EscalateExpiresTheTimer :
    (∃ c, Named .escalate [] 8 c ∧ c.state = .closed) ∧ (∃ c, Named .escalate [] 9 c ∧ c.state ≠ .closed ∧ c.hold ≠ none) ∧
      (∃ c, Named .escalate [] 5 c ∧ c.state ≠ .closed ∧ c.hold = none ∧ c.timer.mode = .none) ∧
      (∃ c, Named .escalate [] 2 c ∧ c.hold = none ∧ c.timer.mode = .offer) ∧
      (∃ c cr, Named .escalate [] 3 c ∧ c.hold = none ∧ c.timer.mode = .travel ∧ c.holder = some 3 ∧ site.crew 3 = some cr ∧
        site.ladderOf c = some electricalLadder ∧ electricalLadder.reclaim = true) ∧
      (∃ c, Named .escalate [] 4 c ∧ c.hold = none ∧ c.timer.mode = .travel ∧ c.holder = some 4 ∧
        site.ladderOf c = some hydraulicLadder ∧ hydraulicLadder.reclaim = false) ∧
      ∃ c, Named .escalate [] 7 c ∧ c.hold = none ∧ c.timer.mode = .retry := by
  refine ⟨⟨_, named _ _ _ _ rfl, ?_⟩, ⟨_, named _ _ _ _ rfl, ?_⟩, ⟨_, named _ _ _ _ rfl, ?_⟩, ⟨_, named _ _ _ _ rfl, ?_⟩,
    ⟨_, _, named _ _ _ _ rfl, rfl, rfl, rfl, rfl, ?_⟩, ⟨_, named _ _ _ _ rfl, ?_⟩, ⟨_, named _ _ _ _ rfl, ?_⟩⟩ <;>
    decide +kernel

theorem witness_RepageReloadsAndPages :
    (∃ c, Named .repage [] 0 c ∧ c.state = .waiting ∧ c.hold = none) ∧
      (∃ c, Named .repage [] 9 c ∧ c.state ≠ .closed ∧ c.hold ≠ none) ∧
      (∃ c, Named .repage [] 5 c ∧ c.state = .accepted ∧ c.hold = none ∧ site.ladderOf c = some mechanicalLadder ∧
        mechanicalLadder.travel = none) ∧
      (∃ c, Named .repage [] 3 c ∧ c.state = .accepted ∧ c.hold = none ∧ site.ladderOf c = some electricalLadder ∧
        electricalLadder.travel = some 600) ∧
      (∃ c r, Named .repage [] 2 c ∧ c.state = .offered ∧ site.rungOf c = some r ∧
        site.queue.entries.length + c.offerees.length ≤ 24) ∧
      ((site.crew 1).map (fun cr => cr.badge) = some 101 ∧
        (Entry.fresh (.page { sitePage with tag := siteTag 2, badge := 101 }) .urgent).pendingPage (siteTag 2) 101 = true) := by
  refine ⟨⟨_, named _ _ _ _ rfl, ?_⟩, ⟨_, named _ _ _ _ rfl, ?_⟩, ⟨_, named _ _ _ _ rfl, ?_⟩, ⟨_, named _ _ _ _ rfl, ?_⟩,
    ⟨_, _, named _ _ _ _ rfl, rfl, rfl, ?_⟩, ?_⟩ <;> decide +kernel

theorem witness_EnrolAmendAndStageDuty :
    CommandWaits 0x0B (waits .enrol [0, 108, 1, 2, 16] site) ∧ CommandWaits 0x0C (waits .amend [0, 106, 1, 2, 16] site) ∧
      CommandWaits 0x10 (waits .stageDuty [0, 106, 2] site) ∧ badgeValid (word16 0 108) = true ∧
      badgeValid (word16 0 0) = false ∧ ((0xF0 : Byte).extractLsb' 0 4 : BitVec 4) = 0 ∧ (2 : Byte) = byteOf (gradeRank .supervisor) ∧
      (16 : Byte) = zoneByte (some 15) ∧ site.enrolled (word16 0 108) = none ∧ site.enrolled (word16 0 106) = some 6 ∧
      site.crew 8 = none ∧ (∀ l : CrewSlotNo, l < 8 → site.crew l ≠ none) ∧
      (∀ k, { site with roster := { site.roster with crews := Vector.replicate 48 (siteCrew 0) } }.crew k ≠ none) := by
  refine ⟨waits_waits .enrol _ _ rfl rfl, waits_waits .amend _ _ rfl rfl, waits_waits .stageDuty _ _ rfl rfl, ?_⟩
  decide +kernel

theorem witness_SetDutyAndRemoveCrew :
    BindingOk (waits .setDuty [0, 104, 0] site) ∧ BadgesOk (waits .setDuty [0, 104, 0] site) ∧
      CommandWaits 0x0F (waits .setDuty [0, 104, 0] site) ∧ CommandWaits 0x0D (waits .removeCrew [0, 100] site) ∧
      badgeValid (word16 0 104) = true ∧ site.enrolled (word16 0 104) = some 4 ∧ site.enrolled (word16 3 231) = none ∧
      (∃ cr, site.crew 4 = some cr ∧ cr.duty = .on ∧ cr.load ≠ 0 ∧ cr.offer ≠ none) ∧
      (∃ cr, site.crew 7 = some cr ∧ cr.duty = .off) ∧ (∃ cr, site.crew 0 = some cr ∧ cr.load = 0 ∧ cr.offer = some (site.tagOf 1)) ∧
      site.queue.entries.length + 2 * ((site.acceptedCalls 4).length + 1) ≤ 24 :=
  ⟨binding_of_same rfl rfl site_binding, badges_of_same rfl site_badges, waits_waits .setDuty _ _ rfl rfl,
    waits_waits .removeCrew _ _ rfl rfl, by decide, by decide +kernel, by decide +kernel, ⟨_, rfl, by decide⟩,
    ⟨_, rfl, by decide⟩, ⟨_, rfl, rfl, by decide +kernel⟩, by decide +kernel⟩

/-- A walk at a slot, with every crew's staged duty the same. -/
def walkingAt (k : CrewSlotNo) (staged : Option Duty) : State :=
  { site with roster := { site.roster with
      crews := Vector.ofFn (fun j => (siteCrew j.val).map (fun c => { c with staged := staged }))
      walk := { progress := .walking k, switched := 0, withdrawn := 0, handedBack := 0 } } }

theorem witness_ShiftCutWalksEverySlot :
    CommandWaits 0x11 (waits .shiftCut [] site) ∧ site.plan.phase = .closed ∧ site.roster.walk.progress = .idle ∧
      BindingOk (walkingAt 4 (some .off)) ∧ BindingOk (walkingAt 47 none) ∧ (walkingAt 47 none).crew 47 = none ∧
      (∃ cr, (walkingAt 4 (some .off)).crew 4 = some cr ∧ cr.staged = some .off ∧ cr.duty = .on) ∧
      (∃ cr, (walkingAt 7 (some .on)).crew 7 = some cr ∧ cr.staged = some .on ∧ cr.duty = .off) ∧
      ∃ cr, (walkingAt 7 (some .off)).crew 7 = some cr ∧ cr.staged = some cr.duty :=
  ⟨waits_waits .shiftCut _ _ rfl rfl, rfl, rfl, bindingOk_of_check (by decide +kernel), bindingOk_of_check (by decide +kernel),
    by decide +kernel, ⟨_, rfl, by decide⟩, ⟨_, rfl, by decide⟩, ⟨_, rfl, by decide⟩⟩

/-- The site in a warm session. -/
def siteWarm : State := { site with plan := { sitePlan with phase := .openWarm, autoClose := some 0 } }

/-- The bytes of a legal item stand in the buffer. -/
theorem holds_of_check {s : State} {bytes : List Byte}
    (h : (List.finRange 24).all (fun n : Fin 24 => decide (n.val < max 3 bytes.length → s.arg n = bytes.getD n.val 0)) = true) :
    BufferHolds s bytes := fun n hn => by
  have := List.all_eq_true.mp h n (List.mem_finRange n)
  simp only [decide_eq_true_eq] at this
  exact this hn

def badLadder : Ladder := { mechanicalLadder with reclaim := true }

theorem legal_electrical : LegalContents (.ladder .electrical .stop (some electricalLadder)) := by
  refine ⟨by decide, by decide, ?_, fun n h => ⟨20, by decide, by decide, ?_⟩, 30, by decide, by decide, rfl⟩
  · intro r hr
    simp only [electricalLadder, List.mem_cons, List.not_mem_nil, or_false] at hr
    rcases hr with rfl | rfl
    · exact ⟨fun n h => by cases h; decide, 9, by decide, by decide, rfl⟩
    · exact ⟨fun n h => (nomatch h), 9, by decide, by decide, rfl⟩
  · cases h; rfl

theorem witness_PlanWriteIsRefusedInOrder :
    CommandWaits 0x12 (waits .planWrite [6, 0, 1, 1] siteWarm) ∧ site.plan.phase = .closed ∧ siteWarm.plan.phase = .openWarm ∧
      PlanItem.lineSettings.bytes = [8, 0] ∧ (15 : Nat) > (14 : Byte).toNat ∧ LegalContents (.thresholds 1 1) ∧
      BufferHolds (waits .planWrite [6, 0, 1, 1] siteWarm) [6, 0, 1, 1] ∧ FailsCheck (.thresholds 1 1) 3 ∧
      FailsCheck (.ladder .crane .stop (some badLadder)) 1 ∧
      (∃ c, siteWarm.call 0 = some c ∧ c.state ≠ .closed ∧ c.trade = .electrical ∧ c.cls = .routine) :=
  ⟨waits_waits .planWrite _ _ rfl rfl, rfl, rfl, rfl, by decide, ⟨by decide, by decide⟩, holds_of_check (by decide +kernel),
    ⟨rfl, by decide, by decide⟩, .inl ⟨rfl, rfl, rfl⟩, ⟨_, rfl, by decide⟩⟩

/-- A neighbour that is the zone itself, one that stands twice, one above 16; and a rung of grade 3, of reach 3, of 5 tries, and
of no offer time. -/
theorem witness_PlanWriteFieldsOutOfRange :
    (let s := waits .planWrite [1, 2, 0, 1, 2] siteWarm
     s.arg 0 = 1 ∧ 0 < (s.arg 3).toNat ∧ s.arg 4 = s.arg 1) ∧
      (let s := waits .planWrite [1, 2, 0, 3, 3, 17, 3] siteWarm
       2 < (s.arg 3).toNat ∧ s.arg 4 = s.arg 6 ∧ 16 < (s.arg 5).toNat) ∧
      (let s := waits .planWrite [3, 0, 4, 0, 0, 1, 0xC1, 1, 0x30, 1, 0x05, 1, 0x01, 0] siteWarm
       s.arg 0 = 3 ∧ 3 < (s.arg 2).toNat ∧ (s.arg 6).toNat / 64 = 3 ∧ (s.arg 8).toNat / 16 % 4 = 3 ∧
         4 < (s.arg 10).toNat % 8 ∧ s.arg 13 = 0) := by decide +kernel

/-- The warm writes: an item that is no ladder, an absent ladder that no live call uses, and a ladder of one rung that clamps
the call in slot 2. -/
theorem witness_PlanWriteInAWarmSession :
    CommandWaits 0x12 (waits .planWrite [4, 0, 3] siteWarm) ∧ LegalContents (.loadLimit 3) ∧
      siteWarm.plan.phase = .openWarm ∧ (∀ b, ¬ FailsCheck (.loadLimit 3) b) ∧
      BufferHolds (waits .planWrite [4, 0, 3] siteWarm) [4, 0, 3] ∧
      BufferHolds (waits .planWrite [3, 0x22, 0] siteWarm)
        ((itemOf (.ladder .hydraulic .stop none)).bytes ++
          (siteWarm.storeItem (.ladder .hydraulic .stop none)).itemBytes (.ladder .hydraulic .stop)) ∧
      (∀ i c, siteWarm.call i = some c → c.state = .closed ∨ c.trade ≠ .hydraulic ∨ c.cls ≠ .stop) ∧
      BufferHolds (waits .planWrite [3, 1, 1, 0, 0, 30, 0x61, 9] siteWarm)
        ((itemOf (.ladder .electrical .urgent (some mechanicalLadder))).bytes ++
          (siteWarm.storeItem (.ladder .electrical .urgent (some mechanicalLadder))).itemBytes (.ladder .electrical .urgent)) ∧
      ∃ c, siteWarm.call 2 = some c ∧ c.state ≠ .closed ∧ c.trade = .electrical ∧ c.cls = .urgent ∧
        mechanicalLadder.rungs[c.rung]? = none := by
  refine ⟨waits_waits .planWrite _ _ rfl rfl, ⟨by decide, by decide⟩, rfl, fun _ h => h, holds_of_check (by decide +kernel),
    holds_of_check (by decide +kernel), fun i c h => ?_, holds_of_check (by decide +kernel),
    ⟨_, rfl, by decide, rfl, rfl, rfl⟩⟩
  have := everyCall_at (s := siteWarm) (p := fun _ c => c.state == .closed || c.trade != .hydraulic || c.cls != .stop)
    (by decide +kernel) i c h
  simpa [or_assoc] using this

theorem witness_PlanWriteStoresAndPlanReadShows :
    CommandWaits 0x12 (waits .planWrite [3, 2, 2, 20, 1, 30, 0x02, 9, 0x20, 9] State.reset) ∧
      LegalContents (.ladder .electrical .stop (some electricalLadder)) ∧
      BufferHolds (waits .planWrite [3, 2, 2, 20, 1, 30, 0x02, 9, 0x20, 9] State.reset)
        (PlanItem.bytes (.ladder .electrical .stop) ++
          (State.reset.storeItem (.ladder .electrical .stop (some electricalLadder))).itemBytes (.ladder .electrical .stop)) ∧
      (∀ b, ¬ FailsCheck (.loadLimit 3) b) ∧ LegalContents (.loadLimit 3) ∧ State.reset.plan.phase = .openCold ∧
      CommandWaits 0x13 (waits .planRead [1, 16] siteWarm) ∧ PlanItem.bytes (.zone 15) = [1, 16] := by
  refine ⟨waits_waits .planWrite _ _ rfl rfl, legal_electrical, holds_of_check (by decide +kernel), fun _ h => h,
    ⟨by decide, by decide⟩, rfl, waits_waits .planRead _ _ rfl rfl, rfl⟩

theorem witness_PlanCloseAndAutoClose :
    site.plan.autoClose ≠ some 0 ∧ CommandWaits 0x14 (waits .planClose [] site) ∧
      CommandWaits 0x14 (waits .planClose [] State.reset) ∧ State.reset.plan.phase = .openCold ∧
      (∀ tr cl b, ¬ FailsCheck (.ladder tr cl (State.reset.ladder tr cl)) b) ∧
      (∀ b, ¬ FailsCheck (.thresholds 0 0) b) ∧ FailsCheck (.thresholds 22 22) 3 ∧ BindingOk siteWarm ∧
      siteWarm.plan.phase = .openWarm ∧ CommandWaits 0x14 (waits .planClose [] siteWarm) ∧
      siteWarm.plan.autoClose = some 0 ∧
      (let s := State.reset.storeItem (.ladder .mechanical .urgent (some { electricalLadder with travel := none }))
       CommandWaits 0x14 (waits .planClose [] s) ∧ s.plan.phase = .openCold ∧
         FailsCheck (.ladder .mechanical .urgent (s.ladder .mechanical .urgent)) 1 ∧
         ∀ tr cl b, ladderIndex tr cl < ladderIndex .mechanical .urgent →
           ¬ FailsCheck (.ladder tr cl (s.ladder tr cl)) b) := by
  refine ⟨by decide +kernel, waits_waits .planClose _ _ rfl rfl, waits_waits .planClose _ _ rfl rfl, rfl, fun tr cl b => ?_,
    fun b h => h.2.1 ⟨rfl, rfl⟩, ⟨rfl, by decide, by decide⟩, binding_of_same rfl rfl site_binding, rfl,
    waits_waits .planClose _ _ rfl rfl, rfl, waits_waits .planClose _ _ rfl rfl, rfl, .inl ⟨rfl, rfl, rfl⟩,
    fun tr cl b h => ?_⟩
  · cases tr <;> cases cl <;> exact fun h => h
  · cases tr <;> cases cl <;> first | exact fun h => h | exact absurd h (by decide)

/-- The site after a warm restart, its auto-close count run down: every live call has a RESTART or a COMMAND hold, and no offer
stands. -/
def siteRestarted : State :=
  let s := after .warmRestart (after .resetLineAssertion site)
  { s with plan := { s.plan with autoClose := some 0 } }

theorem witness_PlanClose_resumePass :
    BindingOk siteRestarted ∧ siteRestarted.resetLine = .released ∧ siteRestarted.plan.phase = .openWarm ∧
      siteRestarted.plan.autoClose = some 0 ∧ siteRestarted.disp.list = [] ∧
      (∀ i c, siteRestarted.call i = some c → c.offerees = []) ∧
      (siteRestarted.call 0).map (fun c => (c.state, c.hold)) = some (.waiting, some .restart) ∧
      (siteRestarted.call 3).map (fun c => (c.state, c.hold)) = some (.accepted, some .restart) ∧
      (∀ p, p ∈ ([0] : List Point) ↔ HasLiveCall siteRestarted p) ∧
      siteRestarted.queue.entries.length + ([0] : List Point).length ≤ 24 := by
  refine ⟨bindingOk_of_check (by decide +kernel), by decide +kernel, by decide +kernel, rfl, by decide +kernel,
    fun i c h => ?_, by decide +kernel, by decide +kernel, fun p => ⟨fun h => ?_, fun ⟨i, c, h, hl, ho⟩ => ?_⟩,
    by decide +kernel⟩
  · have := everyCall_at (s := siteRestarted) (p := fun _ c => c.offerees.isEmpty) (by decide +kernel) i c h
    simpa using this
  · simp only [List.mem_cons, List.not_mem_nil, or_false] at h
    subst h
    have h : (siteRestarted.call 16).any (fun c => c.state != .closed && c.origin == .point 0) = true := by decide +kernel
    cases hc : siteRestarted.call 16 with
    | none => rw [hc] at h; exact nomatch h
    | some c =>
      rw [hc] at h
      simp only [Option.any_some, Bool.and_eq_true, bne_iff_ne, beq_iff_eq] at h
      exact ⟨16, c, hc, h.1, h.2⟩
  · have := everyCall_at (s := siteRestarted) (p := fun _ c => match c.origin with
      | .point p => p == 0
      | .desk _ => true) (by decide +kernel) i c h
    simp only [ho, beq_iff_eq] at this
    simp [this]

/-- The resumed calls join by class, and within a class by slot; the one live point has its LAMP. -/
theorem test_resume_pass_orders_the_list :
    (after .autoClose siteRestarted).disp.list = [2, 16, 0, 1] ∧
      (after .autoClose siteRestarted).queue.entries =
        [Entry.fresh (.lamp 0 (site.lampStates 0)) .urgent] := by decide +kernel

theorem witness_TickAndMinuteReachTheirCounts :
    site.resetLine = .released ∧ (∃ c, site.call 2 = some c ∧ c.timer.mode ≠ .none ∧ c.hold = none ∧ c.timer.count ≠ 0) ∧
      (∃ c, site.call 14 = some c ∧ c.hold ≠ none) ∧ site.clock.tickDue.timers[2] = 0 ∧
      (after (.tick .divider) site).clock.tickDue.timers[2] = 0 + 1 ∧
      (after (.tick .divider) site).clock.tickDue.sightings[6] = 0 + 1 ∧
      (after (.tick .divider) site).clock.tickDue.autoClose = 0 + 1 ∧
      (after (.tick .divider) site).clock.tickDue.minuteCount = 0 + 1 ∧ site.clock.minuteDue.ages[0] = 0 ∧
      (let s := after (.tick .whole) { site with clock := { site.clock with minuteCount := 59 } }
       (∀ i : CallSlotNo, s.clock.minuteDue.ages[i] = 0 + 1) ∧ ∀ k : CrewSlotNo, s.clock.minuteDue.idles[k] = 0 + 1) :=
  ⟨rfl, ⟨_, rfl, by decide⟩, ⟨_, rfl, by decide⟩, by decide +kernel⟩

theorem witness_ExpiriesLapseOverdueAndRetry :
    site.resetLine = .released ∧ BindingOk site ∧
      (∃ c, site.call 1 = some c ∧ c.hold = none ∧ c.timer.expiryPending = true ∧ c.timer.mode = .offer) ∧
      (∃ c cr, site.call 3 = some c ∧ c.hold = none ∧ c.timer.expiryPending = true ∧ c.timer.mode = .travel ∧
        site.ladderOf c = some electricalLadder ∧ c.holder = some 3 ∧ site.crew 3 = some cr) ∧
      (∃ c, site.call 4 = some c ∧ c.hold = none ∧ c.timer.expiryPending = true ∧ c.timer.mode = .travel ∧
        site.ladderOf c = some hydraulicLadder) ∧
      (∃ c, site.call 7 = some c ∧ c.hold = none ∧ c.timer.expiryPending = true ∧ c.timer.mode = .retry) ∧
      ∀ c, site.call 15 = some c → c.timer.mode ≠ .offer ∨ c.timer.expiryPending = false ∨ c.hold ≠ none :=
  ⟨rfl, site_binding, ⟨_, rfl, by decide⟩, ⟨_, _, rfl, rfl, rfl, rfl, rfl, rfl, rfl⟩, ⟨_, rfl, rfl, rfl, rfl, rfl⟩,
    ⟨_, rfl, by decide⟩, fun _ h => nomatch h⟩

theorem witness_CandidatesAreTheEligibleCrewsInOrder : RangesOk site := site_ranges

theorem witness_DispatchTurnOffersToTheChosenCrews : ∃ c r, site.disp.list = 16 :: [0] ∧ site.call 16 = some c ∧
    site.ladderOf c = some electricalLadder ∧ electricalLadder.rungs[0]? = some r ∧ TurnReaches site c electricalLadder 0 ∧
    chosenFrom site c r (triesAt c 0) = [2] ∧ (∀ k ∈ ([2] : List CrewSlotNo), ∀ cr, site.crew k = some cr → cr.offer = none) ∧
    c.cls ≠ .routine ∧ site.queue.entries.length + 1 + 1 ≤ 24 := by
  refine ⟨_, _, rfl, rfl, rfl, rfl, ⟨by decide, fun m _ _ h => absurd h (by omega)⟩, by decide +kernel, ?_, by decide,
    by decide +kernel⟩
  intro k hk cr h
  simp only [List.mem_cons, List.not_mem_nil, or_false] at hk
  subst hk
  cases h
  rfl

/-- The site with 22 entries in its queue: the STOP call in slot 15 needs five positions and is passed over, and the URGENT call
behind it, in slot 16, is of a trade given. -/
def sitePassing (t : Trade) : State :=
  ((((site.setSlot 15 { generation := 1, call := some { callOf .waiting 7 .electrical .stop with rung := 1 } }).setSlot 16
    { generation := 1, call := some { callOf .waiting 0 t .urgent with origin := .point 0 } }).setDispatchList [15, 16, 0]).setEntries
      (List.replicate 22 { waitingEntry with band := .stop }))

theorem sitePassing_laws (t : Trade) : BindingOk (sitePassing t) ∧ DispatchOk (sitePassing t) ∧ BadgesOk (sitePassing t) := by
  cases t <;> exact ⟨bindingOk_of_check (by decide +kernel), dispatchOk_of_check (by decide +kernel),
    badges_of_same rfl site_badges⟩

theorem sitePassing_passes (t : Trade) : PassedOver (sitePassing t) 15 := by
  cases t <;> exact ⟨_, electricalLadder, 1, _, rfl, rfl, rfl, ⟨by decide, fun m _ h1 h2 => absurd h2 (by
    show ¬ m < 1
    have : 1 ≤ m := h1
    omega)⟩, by decide +kernel, .inr (by decide +kernel)⟩

/-- A turn that passes over the head of the list. -/
theorem witness_DispatchTurnPassesOver : ∃ c r,
    (sitePassing .electrical).disp.list = [15] ++ 16 :: [0] ∧
      (∀ j ∈ ([15] : List CallSlotNo), PassedOver (sitePassing .electrical) j) ∧
      (sitePassing .electrical).call 16 = some c ∧ (sitePassing .electrical).ladderOf c = some electricalLadder ∧
      electricalLadder.rungs[0]? = some r ∧ chosenFrom (sitePassing .electrical) c r (triesAt c 0) = [2] ∧
      c.cls ≠ .routine ∧ (sitePassing .electrical).queue.entries.length + 1 + 1 ≤ 24 := by
  refine ⟨_, _, rfl, fun j h => ?_, rfl, rfl, rfl, by decide +kernel, by decide, by decide +kernel⟩
  simp only [List.mem_cons, List.not_mem_nil, or_false] at h
  subst h
  exact sitePassing_passes _

theorem test_turn_passes_over_the_head_of_the_list :
    (after .dispatchTurn (sitePassing .electrical)).disp.list = [15, 0] ∧
      ((after .dispatchTurn (sitePassing .electrical)).call 16).map (fun c => (c.state, c.offerees)) =
        some (.offered, [2]) := by decide +kernel

theorem siteStop_binding (t : Trade) : BindingOk (siteStop t) := by
  cases t <;> exact bindingOk_of_check (by decide +kernel)
theorem siteStop_dispatch (t : Trade) : DispatchOk (siteStop t) := by
  cases t <;> exact dispatchOk_of_check (by decide +kernel)

/-- A STOP turn that is one position short, with the PAGE of a standing offer to displace. -/
theorem witness_DispatchTurnDisplaces : ∃ c r v cr rv,
    let s := siteCrowded (.page sitePage) (siteStop .electrical)
    BindingOk s ∧ DispatchOk s ∧ BadgesOk s ∧ s.resetLine = .released ∧ s.plan.phase = .closed ∧
      s.disp.list = 15 :: [16, 0] ∧ s.call 15 = some c ∧ c.cls = .stop ∧ c.origin = .desk 7 ∧
      s.ladderOf c = some electricalLadder ∧ electricalLadder.rungs[0]? = some r ∧ chosenFrom s c r (triesAt c 0) = [2] ∧
      (siteCrew 2).bind (fun x => x.offer) = none ∧ s.queue.entries.length + ([2] : List CrewSlotNo).length = 25 ∧
      s.queue.entries = List.replicate 23 { waitingEntry with band := .stop } ++ Entry.fresh (.page sitePage) .routine :: [] ∧
      s.enrolled sitePage.badge = some 0 ∧ s.crew 0 = some cr ∧ sitePage.tag = s.tagOf sitePage.tag.slot ∧
      s.call sitePage.tag.slot = some v ∧ v.origin = .desk 1 ∧ 0 ∈ v.offerees ∧ s.rungOf v = some rv ∧
      sitePage.mode ≠ .assigned :=
  ⟨_, _, _, _, _, binding_of_same rfl rfl (siteStop_binding .electrical), dispatch_of_same rfl rfl (siteStop_dispatch _),
    badges_of_same rfl site_badges, rfl, rfl, rfl, rfl, rfl, rfl, rfl, rfl, by decide +kernel, rfl, by decide +kernel,
    by decide +kernel, by decide +kernel, rfl, by decide +kernel, rfl, rfl, by decide, rfl, by decide⟩

theorem witness_DispatchTurnPreEmptsALowerClass : ∃ c v r rv cr, (siteStop .mechanical).disp.list = 15 :: [16, 0] ∧
    BindingOk (siteStop .mechanical) ∧ DispatchOk (siteStop .mechanical) ∧ BadgesOk (siteStop .mechanical) ∧
    (siteStop .mechanical).call 15 = some c ∧ (siteStop .mechanical).ladderOf c = some mechanicalLadder ∧
    mechanicalLadder.rungs[c.rung]? = some r ∧ chosenFrom (siteStop .mechanical) c r c.triesUsed = [0] ∧
    (siteStop .mechanical).crew 0 = some cr ∧ cr.offer = some ((siteStop .mechanical).tagOf 1) ∧
    (siteStop .mechanical).call 1 = some v ∧ (siteStop .mechanical).rungOf v = some rv ∧ v.offerees = [0] := by
  refine ⟨_, _, _, _, _, rfl, siteStop_binding _, siteStop_dispatch _, badges_of_same rfl site_badges, rfl, rfl, rfl,
    by decide +kernel, rfl, by decide +kernel, rfl, rfl, rfl⟩

/-- The site throttled, with a ROUTINE call alone in the list. -/
def siteThrottled : State :=
  { site with disp := { site.disp with list := [0] }, queue := { site.queue with throttled := true } }

theorem witness_DispatchTurnExhaustsTheLadder :
    (∃ c r, BindingOk (siteStop .hydraulic) ∧ DispatchOk (siteStop .hydraulic) ∧
      (siteStop .hydraulic).disp.list = 15 :: [16, 0] ∧ (siteStop .hydraulic).call 15 = some c ∧
      (siteStop .hydraulic).ladderOf c = some hydraulicLadder ∧ c.rung < hydraulicLadder.rungs.length ∧
      TurnReaches (siteStop .hydraulic) c hydraulicLadder hydraulicLadder.rungs.length ∧
      hydraulicLadder.rungs[hydraulicLadder.rungs.length - 1]? = some r) ∧
      State.reset.disp.list = [] ∧
      (sitePassing .hydraulic).disp.list = [15] ++ 16 :: [0] ∧ PassedOver (sitePassing .hydraulic) 15 ∧
      (sitePassing .hydraulic).turnPlan { callOf .waiting 0 .hydraulic .urgent with origin := .point 0 } =
        some (.exhausted 0 1) ∧
      ∀ i ∈ siteThrottled.disp.list, PassedOver siteThrottled i := by
  refine ⟨⟨_, _, siteStop_binding _, siteStop_dispatch _, rfl, rfl, rfl, by decide, ⟨by decide, fun m r h1 h2 hr => ?_⟩, rfl⟩,
    rfl, rfl, sitePassing_passes _, by decide +kernel, fun i hi => ?_⟩
  · have hm : m = 0 := by simp [hydraulicLadder] at h2; exact h2
    subst hm
    cases hr
    decide +kernel
  · have hi : i = 0 := by simpa [siteThrottled] using hi
    subst hi
    exact ⟨_, electricalLadder, 0, _, rfl, rfl, rfl, ⟨by decide, fun m _ h1 h2 => absurd h2 (by omega)⟩, by decide +kernel,
      .inl ⟨rfl, rfl⟩⟩

theorem witness_LineIdleEdgeSendStartAndArbitrationLoss :
    (site.setLineState (.busy .waitingForIdle)).line.state = .busy .waitingForIdle ∧ site.line.state = .idle ∧
      site.queue.entries = [] ∧ RoutedTo site 100 (Zone.beacon 0) ∧ RoutedTo site 999 0 ∧
      Sends (siteSends (sendingEntry (.page sitePage) 0 112)) ∧
      (siteSends (sendingEntry (.page sitePage) 0 112)).queue.entries =
        [] ++ sendingEntry (.page sitePage) 0 112 :: [waitingEntry] ∧ (112 : Addr) ≠ 0 ∧
      InReceiptWindow (siteAwaits (sendingEntry (.page sitePage) 0 112)) ∧
      Instr.wf (.key 0 [1]) = true ∧ BringsAFrame (.key 0 [1]) ∧ Sends (siteTwins .stop) ∧
      Twins (sendingEntry (.page sitePage) 1 112) (Entry.fresh (.page { sitePage with zone := 9 }) .stop) ∧
      ¬ Twins (sendingEntry (.page sitePage) 1 112) waitingEntry := by
  refine ⟨rfl, rfl, rfl, ?_, ?_, siteSends_sends _, rfl, by decide, siteAwaits_window _, rfl, ⟨.stop, _, rfl⟩, ⟨rfl, _, rfl⟩,
    .inl ⟨_, _, rfl, rfl, rfl, rfl⟩, fun h => ?_⟩
  · exact .inl ⟨0, _, 0, by decide +kernel, rfl, rfl, by decide +kernel, by decide +kernel, by decide +kernel, rfl⟩
  · refine .inr ⟨rfl, fun k cr z h => ?_⟩
    have e : site.enrolled 999 = none := by decide +kernel
    rw [e] at h
    exact nomatch h
  · rcases h with ⟨_, _, _, h, _⟩ | ⟨_, _, _, h, _⟩ <;> exact nomatch h

/-- The entry in flight at the site, at the last attempt allowed and before it. -/
theorem witness_FailedAttemptsCountAndEndAtTheLimit (content : EntryContent) (attempts : Nat) :
    let e := sendingEntry content attempts 112
    LineOk (siteSends e) ∧ LineOk (siteAwaits e) ∧ (siteSends e).queue.entries = [] ++ e :: [waitingEntry] ∧
      (siteAwaits e).queue.entries = [] ++ e :: [waitingEntry] ∧ e.inFlight = true ∧
      FailsBy (siteAwaits e) .noReceipt true .frameOver false ∧
      FailsBy (siteSends e) (.bitFault { kind := .overdriven, inArbitrationField := false }) false .waitingForIdle true ∧
      (siteSends e).plan.attemptLimit = 3 ∧ ¬ Supersedes waitingEntry (sendingEntry (.page sitePage) 1 112) ∧
      Supersedes waitingEntry (sendingEntry (.page { sitePage with tag := siteTag 3, badge := 103 }) 1 112) := by
  refine ⟨siteSends_lineOk _ _ _, siteAwaits_lineOk _ _ _, rfl, rfl, rfl,
    .inr ⟨siteAwaits_window _, rfl, rfl, .inl ⟨rfl, rfl⟩⟩,
    .inl ⟨siteSends_sends _, _, rfl, rfl, rfl, rfl, .inl ⟨rfl, rfl⟩⟩, rfl, fun h => ?_,
    ⟨rfl, .inr (.inl ⟨_, _, rfl, rfl, rfl, rfl⟩)⟩⟩
  rcases h.2 with (⟨_, _, _, h, _⟩ | ⟨_, _, _, h, _⟩) | ⟨p, w, hp, hw, ht, _⟩ | ⟨_, _, h, _⟩
  · exact nomatch h
  · exact nomatch h
  · cases hp; cases hw; exact absurd ht (by decide)
  · exact nomatch h

/-- The PAGE of an offer that stands, at its last attempt. -/
theorem witness_FailedAttempts_standingOffer : ∃ v cr,
    site.enrolled sitePage.badge = some 0 ∧ site.crew 0 = some cr ∧ sitePage.tag = site.tagOf sitePage.tag.slot ∧
      site.call sitePage.tag.slot = some v ∧ 0 ∈ v.offerees ∧ v.hold = none ∧ v.offerees.filter (· ≠ 0) = [] :=
  ⟨_, _, by decide +kernel, rfl, by decide +kernel, rfl, by decide, rfl, by decide⟩

theorem witness_DeliveredEntriesLeaveTheQueue (content : EntryContent) :
    LineOk (siteSends (sendingEntry content 0 0)) ∧ Sends (siteSends (sendingEntry content 0 0)) ∧
      LineOk (siteAwaits (sendingEntry content 0 112)) ∧ InReceiptWindow (siteAwaits (sendingEntry content 0 112)) ∧
      (siteSends (sendingEntry content 0 0)).queue.entries = [] ++ sendingEntry content 0 0 :: [waitingEntry] ∧
      (sendingEntry content 0 112).dest = some 112 ∧
      HeardReceipt.good { code := 0x20, data := 0, check := crc (bitsOf (0x20 : Byte)), framingError := false } = true :=
  ⟨siteSends_lineOk _ _ _, siteSends_sends _, siteAwaits_lineOk _ _ _, siteAwaits_window _, rfl, rfl, by decide +kernel⟩

theorem witness_ReceiptMismatchAndTheHoldMonitor :
    site.resetLine = .released ∧ (site.setLineState (drives [0x10])).line.state = drives [0x10] ∧
      site.line.state = .idle ∧
      (site.setLineState .held).line.holdMarks < 2 ∧ State.reset.line.state = .silent := by decide +kernel

theorem witness_StepKeepsTheQueuesAndTheRanges : ∃ t, QueueOk site ∧ LineOk site ∧ PairsOk site ∧ AttentionOk site ∧ RangesOk site ∧
    step (site.setPending [.lineIdle]) = .next t :=
  ⟨_, site_queue,
    ⟨by decide, fun _ ⟨_, he, _⟩ => (nomatch he), by simp [site, sitePlan], by simp [site, State.reset],
      by simp [site, State.reset]⟩, pairsOk_of_check (by decide), site_attention, site_ranges, rfl⟩

theorem witness_StepKeepsTheRecordsInAgreement : ∃ t, (QueueOk site ∧ BadgesOk site ∧ DispatchOk site ∧ BindingOk site ∧
    HornOk site) ∧ step (site.setPending [.lineIdle]) = .next t :=
  ⟨_, ⟨site_queue, site_badges, site_dispatch, site_binding, fun _ => site_horn⟩, rfl⟩

theorem witness_ClosedPlanKeepsItsContents : ∃ t, site.plan.phase = .closed ∧ exec (.tick .whole) site = .next t := ⟨_, rfl, rfl⟩

end Sys2Proof.Tests
end

section
/-! SUPPORT. The crew roster: the events that leave the Call Table and the Send Queue as they are. -/

namespace Sys2Proof.Proofs.CrewRoster

open Sys2Proof Sys2Proof.Machine

/-! ## Events that reach neither a call nor an entry -/

/-- Such an event asks for no lamp update and no comparison of the throttled flag. -/
theorem settle_of_same_records {before after : State} (hc : after.calls = before.calls) (hq : after.queue = before.queue) :
    settle before [] after = after :=
  settle_eq_self before after (fun i => by simp only [State.slot, hc]) (by rw [hq])

theorem runCommand_refused {command : HostCommand} {effect : State → CommandEffect} {s : State} {r : ResultCode}
    (h : CommandWaits command.code s) (he : effect s = refuseWith s r) :
    runCommand command effect s = .next (s.complete r []) := by
  rw [runCommand_of_waits h, he]
  simp only [refuseWith, settle_of_same_records]

theorem runCommand_answered {command : HostCommand} {effect : State → CommandEffect} {s t : State} {answer : List Byte}
    (h : CommandWaits command.code s) (he : effect s = okWith t answer) (hc : t.calls = s.calls) (hq : t.queue = s.queue) :
    runCommand command effect s = .next (t.complete .ok answer) := by
  rw [runCommand_of_waits h, he]
  simp only [okWith, settle_of_same_records hc hq]

/-- A beacon's frame that leaves the Call Table and the Send Queue alone ends with the line after it. -/
theorem receiveFrame_of_same_records {s t : State} {z : Zone} {effect : State → FrameEffect} {receipt : Option ReceiptCode}
    (h : HearsFrames s)
    (he : effect ((s.setAnswering z true).setLineState (.busy .receiving)) =
      { state := t.setLineState (.busy .receiving), receipt := receipt, lamps := [] })
    (hc : t.calls = s.calls) (hq : t.queue = s.queue) :
    receiveFrame (some z) effect s = .next (t.setLineState (.busy (lineAfterFrame receipt))) := by
  have he' : effect ((s.setLineState (.busy .receiving)).setAnswering z true) = _ := he
  rw [receiveFrame_of_heard ((hearsFrame_iff s).mpr (.inl h)), afterFrame_of_hears h]
  simp only [he']
  rw [settle_of_same_records (by simpa using hc) (by simpa using hq)]
  rfl

/-! ## Reading crews -/

@[simp] theorem enrolled_setLineState (s : State) (l : LineState) (b : Badge) :
    (s.setLineState l).enrolled b = s.enrolled b := rfl

@[simp] theorem enrolled_setAnswering (s : State) (z : Zone) (f : Bool) (b : Badge) :
    (s.setAnswering z f).enrolled b = s.enrolled b := rfl

/-- A change of a crew that keeps its badge enrols and releases no badge. -/
theorem enrolled_modCrew (s : State) (k : CrewSlotNo) (f : Crew → Crew) (hf : ∀ c, (f c).badge = c.badge) (b : Badge) :
    (s.modCrew k f).enrolled b = s.enrolled b := by
  unfold State.enrolled
  congr 1
  funext l
  rw [crew_modCrew]
  by_cases e : l = k
  · subst e
    cases s.crew l <;> simp [hf]
  · simp only [if_neg e]

theorem badgeValid_iff (b : Badge) : badgeValid b = true ↔ b ≠ 0 ∧ b ≠ 0xFFFF := by
  simp [badgeValid]

/-! ## Sightings -/

/-- A sighting does not look at the line. -/
theorem sightBadge_setLineState (z : Zone) (l : LineState) (s : State) (b : Badge) :
    State.sightBadge z (s.setLineState l) b = (State.sightBadge z s b).setLineState l := by
  unfold State.sightBadge
  rw [enrolled_setLineState]
  cases s.enrolled b with
  | none => simp only; split <;> rfl
  | some k =>
    simp only [State.modCrew, crew_setLineState]
    cases s.crew k <;> rfl

theorem foldl_sightBadge_setLineState (z : Zone) (l : LineState) (bs : List Badge) (s : State) :
    bs.foldl (State.sightBadge z) (s.setLineState l) = (bs.foldl (State.sightBadge z) s).setLineState l := by
  induction bs generalizing s with
  | nil => rfl
  | cons b bs ih => simp only [List.foldl_cons, sightBadge_setLineState, ih]

theorem sightBadge_of_enrolled {s : State} {b : Badge} {k : CrewSlotNo} (h : s.enrolled b = some k) (z : Zone) :
    State.sightBadge z s b = s.modCrew k (fun c => { c with lastSeen := some z, sightAge := 0 }) := by
  simp only [State.sightBadge, h]

theorem sightBadge_of_unenrolled {s : State} {b : Badge} (h : s.enrolled b = none) (hv : badgeValid b = true) (z : Zone) :
    State.sightBadge z s b = s.latchUnknown b := by
  simp only [State.sightBadge, h, hv, if_true]

theorem sightBadge_of_no_badge {s : State} {b : Badge} (h : s.enrolled b = none) (hv : badgeValid b = false) (z : Zone) :
    State.sightBadge z s b = s := by
  simp only [State.sightBadge, h, hv, Bool.false_eq_true, if_false]

/-- A sighting reaches the roster alone. -/
theorem sightBadge_records (z : Zone) (s : State) (b : Badge) :
    (State.sightBadge z s b).calls = s.calls ∧ (State.sightBadge z s b).queue = s.queue := by
  unfold State.sightBadge
  split
  · simp
  · split <;> exact ⟨rfl, rfl⟩

theorem foldl_sightBadge_records (z : Zone) (bs : List Badge) (s : State) :
    (bs.foldl (State.sightBadge z) s).calls = s.calls ∧ (bs.foldl (State.sightBadge z) s).queue = s.queue := by
  induction bs generalizing s with
  | nil => exact ⟨rfl, rfl⟩
  | cons b bs ih =>
    obtain ⟨hc, hq⟩ := ih (State.sightBadge z s b)
    obtain ⟨hc', hq'⟩ := sightBadge_records z s b
    exact ⟨hc.trans hc', hq.trans hq'⟩

/-! ## The badges of a body -/

/-- The two bytes of a badge make the badge. -/
theorem word16_hiByte_loByte (b : Badge) : word16 (hiByte b) (loByte b) = b := by
  refine BitVec.eq_of_getLsbD_eq fun i hi => ?_
  simp only [word16, hiByte, loByte, BitVec.getLsbD_append, BitVec.getLsbD_extractLsb']
  split
  · simp [*]
  · have h8 : 8 + (i - 8) = i := by omega
    simp only [h8, Bool.and_eq_right_iff_imp, decide_eq_true_eq]
    omega

theorem readSightBody_of_badges {bs : List Badge} (h1 : 1 ≤ bs.length) (h3 : bs.length ≤ 3) :
    readSightBody (bs.flatMap (fun b => [hiByte b, loByte b])) = some bs := by
  match bs, h1, h3 with
  | [a], _, _ => simp [readSightBody, word16_hiByte_loByte]
  | [a, b], _, _ => simp [readSightBody, word16_hiByte_loByte]
  | [a, b, c], _, _ => simp [readSightBody, word16_hiByte_loByte]

/-- A body of another length than that of one, two or three badges names none (R143). -/
theorem readSightBody_of_length {body : List Byte} (h2 : body.length ≠ 2) (h4 : body.length ≠ 4) (h6 : body.length ≠ 6) :
    readSightBody body = none := by
  unfold readSightBody
  split
  · exact absurd rfl h2
  · exact absurd rfl h4
  · exact absurd rfl h6
  · rfl

theorem firstNamings_filter (p : Badge → Bool) (bs : List Badge) :
    firstNamings (bs.filter p) = (firstNamings bs).filter p := by
  induction bs with
  | nil => rfl
  | cons b bs ih =>
    cases hp : p b with
    | true => simp only [List.filter_cons, hp, if_true, firstNamings, ih, List.filter_filter, Bool.and_comm]
    | false =>
      have same : (firstNamings bs).filter p = ((firstNamings bs).filter (· ≠ b)).filter p := by
        rw [List.filter_filter]
        refine List.filter_congr (fun x _ => ?_)
        by_cases e : x = b
        · simp [e, hp]
        · simp [e]
      simp only [List.filter_cons, hp, Bool.false_eq_true, if_false, firstNamings, ih]
      exact same

/-- The badges of a body without its repetitions are those named first (R46). -/
theorem eraseDups_eq_firstNamings : ∀ bs : List Badge, bs.eraseDups = firstNamings bs
  | [] => rfl
  | b :: bs => by
    rw [List.eraseDups_cons, eraseDups_eq_firstNamings (bs.filter _), firstNamings_filter, firstNamings]
    simp only [Bool.beq_eq_decide_eq, ne_eq, decide_not]
  termination_by bs => bs.length
  decreasing_by simpa using Nat.lt_succ_of_le (List.length_filter_le _ bs)

/-! ## SIGHT -/

theorem execSight_of_badges {s : State} (h : HearsFrames s) (z : Zone) {bs : List Badge} (h1 : 1 ≤ bs.length)
    (h3 : bs.length ≤ 3) :
    execSight z .head (bs.flatMap (fun b => [hiByte b, loByte b])) s =
      .next (((firstNamings bs).foldl (State.sightBadge z) (s.setAnswering z true)).setLineState (.busy .frameOver)) := by
  obtain ⟨hc, hq⟩ := foldl_sightBadge_records z (firstNamings bs) (s.setAnswering z true)
  refine receiveFrame_of_same_records (receipt := none) h ?_ hc hq
  simp only [sightEffect, readSightBody_of_badges h1 h3, eraseDups_eq_firstNamings, foldl_sightBadge_setLineState]

/-- A SIGHT that is no report to the head station of one to three badges is discarded (R143). -/
theorem execSight_discarded {s : State} (h : HearsFrames s) (z : Zone) {d : Destination} {body : List Byte}
    (hd : d = .allBeacons ∨ (body.length ≠ 2 ∧ body.length ≠ 4 ∧ body.length ≠ 6)) :
    execSight z d body s = .next ((s.setAnswering z true).setLineState (.busy .frameOver)) := by
  refine receiveFrame_of_same_records (t := s.setAnswering z true) (receipt := none) h ?_ rfl rfl
  rcases hd with rfl | ⟨h2, h4, h6⟩
  · rfl
  · simp only [sightEffect, readSightBody_of_length h2 h4 h6]

/-- Settles O15: the body reads as its badges, and each that is named first is treated by R46. -/
theorem sightRecordsEachBadge : Obligations.SightRecordsEachBadge := by
  refine ⟨fun s z bs h h1 h3 => execSight_of_badges h z h1 h3, fun s z d body h hd => execSight_discarded h z hd,
    fun s z b => ⟨fun k hk => sightBadge_of_enrolled hk z, fun hn h0 hF => ?_, fun hn hb => ?_⟩⟩
  · exact sightBadge_of_unenrolled hn ((badgeValid_iff b).mpr ⟨h0, hF⟩) z
  · refine sightBadge_of_no_badge hn (Bool.eq_false_iff.mpr fun hv => ?_) z
    obtain ⟨h0, hF⟩ := (badgeValid_iff b).mp hv
    exact hb.elim h0 hF

/-! ## KEY -/

/-- The body of a KEY reads as its tag, badge and key (R143). -/
theorem readKeyBody_keyBody {tag : Tag} {b : Badge} {code : Byte} {key : Key} (hv : badgeValid b = true)
    (hk : readKey code.toNat = some key) : readKeyBody (keyBody tag b code) = some (tag, b, key) := by
  simp only [keyBody, readKeyBody, readBadge, word16_hiByte_loByte, hv, if_true, hk, ofByte_byte]

/-- The four key codes (R182). -/
theorem readKey_of_code {n : Nat} (h1 : 1 ≤ n) (h4 : n ≤ 4) : ∃ key, readKey (byteOf n).toNat = some key := by
  interval_cases n
  · exact ⟨.accept, rfl⟩
  · exact ⟨.decline, rfl⟩
  · exact ⟨.onSite, rfl⟩
  · exact ⟨.clear, rfl⟩

theorem enrolled_sighted (s : State) (z : Zone) (k : CrewSlotNo) (b : Badge) :
    (sighted s z k).enrolled b = s.enrolled b :=
  (enrolled_modCrew _ k (fun c => { c with lastSeen := some z, sightAge := 0 }) (fun _ => rfl) b).trans
    (enrolled_setAnswering s z true b)

theorem sighted_records (s : State) (z : Zone) (k : CrewSlotNo) :
    (sighted s z k).calls = s.calls ∧ (sighted s z k).queue = s.queue := by
  simp [sighted]

theorem keyEffect_of_unenrolled {s : State} {b : Badge} {body : List Byte} {tag : Tag} {key : Key} (z : Zone)
    (hbody : readKeyBody body = some (tag, b, key)) (hv : badgeValid b = true) (hn : s.enrolled b = none) :
    keyEffect z body s = { state := s.latchUnknown b, receipt := some .unknownBadge, lamps := [] } := by
  have same : (s.latchUnknown b).enrolled b = s.enrolled b := rfl
  simp only [keyEffect, hbody, sightBadge_of_unenrolled hn hv, same, hn]

/-- A key of an enrolled crew is first a sighting of that crew (R47, R149). -/
theorem sightBadge_of_key {s : State} {b : Badge} {k : CrewSlotNo} (hk : s.enrolled b = some k) (z : Zone) (l : LineState) :
    State.sightBadge z ((s.setAnswering z true).setLineState l) b = (sighted s z k).setLineState l := by
  rw [sightBadge_setLineState, sightBadge_of_enrolled (by simpa using hk), sighted]

theorem resolve_sighted (s : State) (z : Zone) (k : CrewSlotNo) (l : LineState) (tag : Tag) :
    ((sighted s z k).setLineState l).resolve tag = s.resolve tag := by
  simp [State.resolve, sighted]

/-- After the sighting comes the tag (R149). -/
theorem keyEffect_of_unnamed {s : State} {b : Badge} {body : List Byte} {tag : Tag} {key : Key} {k : CrewSlotNo} (z : Zone)
    (l : LineState) (hbody : readKeyBody body = some (tag, b, key)) (hk : s.enrolled b = some k)
    (ht : s.resolve tag = .stale ∨ s.resolve tag = .vacant) :
    keyEffect z body ((s.setAnswering z true).setLineState l) =
      { state := (sighted s z k).setLineState l, receipt := some .stale, lamps := [] } := by
  simp only [keyEffect, hbody, sightBadge_of_key hk, enrolled_setLineState, enrolled_sighted, hk, resolve_sighted]
  rcases ht with ht | ht <;> simp only [ht]

/-- After the tag comes the key (R149). -/
theorem keyEffect_of_named {s u : State} {b : Badge} {body : List Byte} {tag : Tag} {key : Key} {k : CrewSlotNo} {c : Call}
    {r : ReceiptCode} (z : Zone) (l : LineState) (hbody : readKeyBody body = some (tag, b, key)) (hk : s.enrolled b = some k)
    (ht : s.resolve tag = .names c) (ha : ((sighted s z k).setLineState l).applyKey tag.slot k key = (u, r)) :
    keyEffect z body ((s.setAnswering z true).setLineState l) = { state := u, receipt := some r, lamps := [] } := by
  simp only [keyEffect, hbody, sightBadge_of_key hk, enrolled_setLineState, enrolled_sighted, hk, resolve_sighted, ht, ha]

theorem resolve_of_not_current {s : State} {tag : Tag} (h : tag ≠ s.tagOf tag.slot ∨ s.call tag.slot = none) :
    s.resolve tag = .stale ∨ s.resolve tag = .vacant := by
  unfold State.resolve
  split
  · exact .inl rfl
  · rename_i hg
    rcases h with h | h
    · exact absurd (by simp [State.tagOf, not_not.mp hg]) h
    · exact .inr (by simp only [h])

theorem resolve_of_current {s : State} {tag : Tag} {c : Call} (ht : tag = s.tagOf tag.slot) (hc : s.call tag.slot = some c) :
    s.resolve tag = .names c := by
  have hg : (s.slot tag.slot).generation = tag.generation := (congrArg Tag.generation ht).symm
  simp only [State.resolve, hg, ne_eq, not_true_eq_false, if_false, hc]

/-- A key that does nothing to the call it names is answered, and the sighting stands. -/
theorem execKey_of_no_change {s : State} {z : Zone} {tag : Tag} {b : Badge} {code : Byte} {key : Key} {k : CrewSlotNo}
    {c : Call} {r : ReceiptCode} (h : HearsFrames s) (hv : badgeValid b = true) (hkey : readKey code.toNat = some key)
    (hk : s.enrolled b = some k) (ht : tag = s.tagOf tag.slot) (hc : s.call tag.slot = some c)
    (happly : ∀ u : State, ∀ cr, u.call tag.slot = some c → u.crew k = some cr → u.applyKey tag.slot k key = (u, r)) :
    execKey z (keyBody tag b code) s = .next ((sighted s z k).setLineState (.busy (.drivingReceipt r.driven))) := by
  obtain ⟨hcalls, hqueue⟩ := sighted_records s z k
  refine receiveFrame_of_same_records (receipt := some r) h ?_ hcalls hqueue
  obtain ⟨cr, hcr, -⟩ := badge_of_enrolled ((enrolled_sighted s z k b).trans hk)
  have hcall : (sighted s z k).call tag.slot = some c := by simpa [sighted] using hc
  have ha := happly ((sighted s z k).setLineState (.busy .receiving)) cr hcall hcr
  exact keyEffect_of_named z _ (readKeyBody_keyBody hv hkey) hk (resolve_of_current ht hc) ha

theorem execKey_of_unenrolled {s : State} {b : Badge} {code : Byte} {key : Key} (z : Zone) (tag : Tag) (h : HearsFrames s)
    (hv : badgeValid b = true) (hkey : readKey code.toNat = some key) (hn : s.enrolled b = none) :
    execKey z (keyBody tag b code) s =
      .next (((s.latchUnknown b).setAnswering z true).setLineState (.busy (.drivingReceipt ReceiptCode.unknownBadge.driven))) :=
  receiveFrame_of_same_records (t := (s.latchUnknown b).setAnswering z true) (receipt := some .unknownBadge) h
    (keyEffect_of_unenrolled z (readKeyBody_keyBody hv hkey) hv hn) rfl rfl

theorem execKey_of_stale {s : State} {z : Zone} {tag : Tag} {b : Badge} {code : Byte} {key : Key} {k : CrewSlotNo}
    (h : HearsFrames s) (hv : badgeValid b = true) (hkey : readKey code.toNat = some key) (hk : s.enrolled b = some k)
    (ht : tag ≠ s.tagOf tag.slot ∨ s.call tag.slot = none) :
    execKey z (keyBody tag b code) s =
      .next ((sighted s z k).setLineState (.busy (.drivingReceipt ReceiptCode.stale.driven))) := by
  obtain ⟨hcalls, hqueue⟩ := sighted_records s z k
  refine receiveFrame_of_same_records (receipt := some .stale) h ?_ hcalls hqueue
  exact keyEffect_of_unnamed z _ (readKeyBody_keyBody hv hkey) hk (resolve_of_not_current ht)

/-- Settles O17: a badge that is not enrolled and a tag that names no call are answered before the key is looked at, and the
remaining keys find a crew that the call's holder and offerees give no part in them. -/
theorem keysThatChangeNoCall : Obligations.KeysThatChangeNoCall := by
  intro s z tag b h h0 hF
  have hv := (badgeValid_iff b).mpr ⟨h0, hF⟩
  refine ⟨fun hn n h1 h4 => ?_, fun k hk => ⟨fun ht n h1 h4 => ?_, fun c ht hc => ?_⟩⟩
  · obtain ⟨key, hkey⟩ := readKey_of_code h1 h4
    exact execKey_of_unenrolled z tag h hv hkey hn
  · obtain ⟨key, hkey⟩ := readKey_of_code h1 h4
    exact execKey_of_stale h hv hkey hk ht
  · refine ⟨fun hh => ?_, fun hh ho hs => ?_, fun hh ho ha hat => ?_, fun ho => ?_, fun hh ha => ?_, fun hh => ?_, fun hh => ?_⟩
    · exact execKey_of_no_change (key := .accept) (r := .granted) h hv rfl hk ht hc fun u cr hu hcr => by
        simp [State.applyKey, hu, hcr, State.acceptKey, hh]
    · exact execKey_of_no_change (key := .accept) (r := .taken) h hv rfl hk ht hc fun u cr hu hcr => by
        simp [State.applyKey, hu, hcr, State.acceptKey, hh, ho, hs]
    · exact execKey_of_no_change (key := .accept) (r := .notOffered) h hv rfl hk ht hc fun u cr hu hcr => by
        simp [State.applyKey, hu, hcr, State.acceptKey, hh, ho, ha, hat]
    · exact execKey_of_no_change (key := .decline) (r := .notOffered) h hv rfl hk ht hc fun u cr hu hcr => by
        simp [State.applyKey, hu, hcr, State.declineKey, ho]
    · exact execKey_of_no_change (key := .onSite) (r := .done) h hv rfl hk ht hc fun u cr hu hcr => by
        simp [State.applyKey, hu, hcr, State.onSiteKey, hh, ha]
    · exact execKey_of_no_change (key := .onSite) (r := .notHolder) h hv rfl hk ht hc fun u cr hu hcr => by
        simp [State.applyKey, hu, hcr, State.onSiteKey, hh]
    · exact execKey_of_no_change (key := .clear) (r := .notHolder) h hv rfl hk ht hc fun u cr hu hcr => by
        simp [State.applyKey, hu, hcr, State.clearKey, hh]

/-! ## The warm restart -/

/-- R51: a warm restart clears the offer of every crew and keeps the rest. -/
theorem crew_warmRestart (s : State) (k : CrewSlotNo) :
    s.warmRestart.crew k = (s.crew k).map (fun c => { c with offer := none }) := by
  simp [State.warmRestart, State.crew, Roster.warmRestart]

/-- R61: a warm restart keeps the plan's contents and its first-close flag. -/
theorem sitePlan_warmRestart_contents (p : SitePlan) :
    SameContents p.warmRestart p ∧ p.warmRestart.firstClose = p.firstClose ∧ p.warmRestart.autoClosed = false := by
  unfold SitePlan.warmRestart SameContents
  split <;> simp

theorem sitePlan_warmRestart_of_firstClose {p : SitePlan} (h : p.firstClose = true) :
    p.warmRestart.phase = .openWarm ∧ p.warmRestart.autoClose = some 60 := by
  simp [SitePlan.warmRestart, h, Config.autoCloseSeconds]

theorem sitePlan_warmRestart_of_no_firstClose {p : SitePlan} (h : p.firstClose = false) :
    p.warmRestart.phase = .openCold ∧ p.warmRestart.autoClose = none := by
  simp [SitePlan.warmRestart, h]

/-- R142: a warm restart sets every beacon-answering flag. -/
theorem answering_warmRestart (l : LineController) (f : Bool) (z : Zone) : (l.warmRestart f).answering[z] = true := by
  simp [LineController.warmRestart, LineController.halt, LineController.powerOn]

/-- R175: the buffer holds zeros after a reset. -/
theorem buffer_afterReset (cause : ResetCause) (n : Fin 24) : (HostPort.afterReset cause).buffer[n] = 0 := by
  simp [HostPort.afterReset]

/-- Settles O7, block by block (R178). -/
theorem warmRestartAtTheOtherBlocks : Obligations.WarmRestartAtTheOtherBlocks := by
  refine ⟨fun s hlow => ?_, fun s hlow => ?_⟩
  · have hexec : exec .warmRestart s = .next s.warmRestart := by
      change execWarmRestart s = _
      simp only [execWarmRestart, hlow]
    obtain ⟨hcontents, hfirst, hauto⟩ := sitePlan_warmRestart_contents s.plan
    exact ⟨s.warmRestart, hexec, crew_warmRestart s, rfl, rfl, rfl, rfl, hcontents, hfirst, hauto,
      sitePlan_warmRestart_of_firstClose, sitePlan_warmRestart_of_no_firstClose, rfl, rfl, rfl, rfl, rfl, rfl, rfl,
      answering_warmRestart s.line s.plan.firstClose, rfl, rfl, rfl, rfl, buffer_afterReset .warm, rfl, rfl, rfl, rfl, rfl, rfl,
      rfl, rfl⟩
  · change execWarmRestart s = _
    simp only [execWarmRestart, hlow]

/-! ## ENROL and AMEND -/

/-- An argument of ENROL or AMEND is out of range (R32). -/
def CrewArgsBad (s : State) : Prop :=
  badgeValid (word16 (s.arg 0) (s.arg 1)) = false ∨ (s.arg 2).extractLsb' 0 4 = 0 ∨ 2 < (s.arg 3).toNat ∨ s.arg 4 = 0 ∨
    16 < (s.arg 4).toNat

theorem readGrade_of_large {n : Nat} (h : 2 < n) : readGrade n = none := by
  unfold readGrade
  split
  · omega
  · omega
  · omega
  · rfl

theorem readGrade_byteOf_gradeRank (g : Grade) : readGrade (byteOf (gradeRank g)).toNat = some g := by
  cases g <;> rfl

theorem readZone_zoneByte (z : Zone) : readZone (zoneByte (some z)).toNat = some z := by
  have hz := z.isLt
  have e : (zoneByte (some z)).toNat = z.val + 1 := by
    simp only [zoneByte, byteOf, zoneNumber, BitVec.toNat_ofNat]
    omega
  rw [e, readZone, dif_pos ⟨by omega, by omega⟩]
  rfl

theorem readZone_of_out_of_range {n : Nat} (h : n = 0 ∨ 16 < n) : readZone n = none := dif_neg (by omega)

theorem readCrewFields_of_bad {s : State} (h : CrewArgsBad s) : readCrewFields s = none := by
  unfold readCrewFields
  rcases h with h | h | h | h | h
  · simp [readBadge, h]
  · simp [readTrades, h]
  · simp [readGrade_of_large h]
  · simp [readZone_of_out_of_range (.inl (congrArg BitVec.toNat h))]
  · simp [readZone_of_out_of_range (.inr h)]

theorem readCrewFields_of_good {s : State} {g : Grade} {z : Zone} (hv : badgeValid (word16 (s.arg 0) (s.arg 1)) = true)
    (ht : (s.arg 2).extractLsb' 0 4 ≠ 0) (hg : s.arg 3 = byteOf (gradeRank g)) (hz : s.arg 4 = zoneByte (some z)) :
    readCrewFields s = some
      { badge := word16 (s.arg 0) (s.arg 1), trades := (s.arg 2).extractLsb' 0 4, grade := g, home := z } := by
  simp only [readCrewFields, readBadge, readTrades, hv, ht, if_true, if_false, hg, hz, readGrade_byteOf_gradeRank,
    readZone_zoneByte]

theorem lowestUnoccupied_eq_none {s : State} (h : ∀ k, s.crew k ≠ none) : s.lowestUnoccupied = none :=
  List.find?_eq_none.mpr fun k _ => by simpa using h k

/-- ENROL takes the lowest-numbered unoccupied slot (R33). -/
theorem lowestUnoccupied_eq_some {s : State} {k : CrewSlotNo} (hk : s.crew k = none) (hl : ∀ l, l < k → s.crew l ≠ none) :
    s.lowestUnoccupied = some k := by
  cases hf : s.lowestUnoccupied with
  | none => simpa [hk] using List.find?_eq_none.mp hf k (List.mem_finRange k)
  | some l =>
    obtain ⟨hl0, before, after, hsplit, hbefore⟩ := List.find?_eq_some_iff_append.mp hf
    have hsorted : (before ++ l :: after).Pairwise (· < ·) := hsplit ▸ List.pairwise_lt_finRange 48
    have hmem : k ∈ before ++ l :: after := hsplit ▸ List.mem_finRange k
    rcases List.mem_append.mp hmem with h | h
    · simpa [hk] using hbefore k h
    · rcases List.mem_cons.mp h with rfl | h
      · rfl
      · have hlk := (List.pairwise_cons.mp (List.pairwise_append.mp hsorted).2.1).1 k h
        exact absurd (by simpa using hl0) (hl l hlk)

theorem enrolEffect_duplicate {s : State} {f : CrewFields} (hf : readCrewFields s = some f) (he : s.enrolled f.badge ≠ none) :
    enrolEffect s = refuseWith s .duplicate := by
  simp only [enrolEffect, hf, Option.isSome_iff_ne_none.mpr he, if_true]

theorem enrolEffect_full {s : State} {f : CrewFields} (hf : readCrewFields s = some f) (he : s.enrolled f.badge = none)
    (hn : s.lowestUnoccupied = none) : enrolEffect s = refuseWith s .full := by
  simp only [enrolEffect, hf, he, Option.isSome_none, Bool.false_eq_true, if_false, hn]

theorem enrolEffect_of_vacancy {s : State} {f : CrewFields} {k : CrewSlotNo} (hf : readCrewFields s = some f)
    (he : s.enrolled f.badge = none) (hk : s.lowestUnoccupied = some k) :
    enrolEffect s = okWith (s.setCrew k (some (newCrew f))) [byteOf k.val] := by
  simp only [enrolEffect, hf, he, Option.isSome_none, Bool.false_eq_true, if_false, hk]

theorem amendEffect_noSuch {s : State} {f : CrewFields} (hf : readCrewFields s = some f) (he : s.enrolled f.badge = none) :
    amendEffect s = refuseWith s .noSuch := by
  simp only [amendEffect, hf, he]

theorem amendEffect_of_enrolled {s : State} {f : CrewFields} {k : CrewSlotNo} {cr : Crew} (hf : readCrewFields s = some f)
    (he : s.enrolled f.badge = some k) (hcr : s.crew k = some cr) :
    amendEffect s =
      okWith (s.setCrew k (some { cr with trades := f.trades, grade := f.grade, home := f.home })) [byteOf k.val] := by
  simp only [amendEffect, hf, he, modCrew_of_some hcr]

/-! ## Commands on an enrolled badge -/

theorem onCrew_badField {needsClosed fieldsOk : Bool} {s : State} (body : CrewSlotNo → Crew → CommandEffect)
    (hp : needsClosed = true → s.plan.phase = .closed)
    (h : badgeValid (word16 (s.arg 0) (s.arg 1)) = false ∨ fieldsOk = false) :
    onCrew needsClosed fieldsOk s body = refuseWith s .badField := by
  have hopen : ¬ (needsClosed = true ∧ s.plan.phase ≠ .closed) := fun ⟨hn, hc⟩ => hc (hp hn)
  rw [onCrew, if_neg hopen, if_pos (by rcases h with h | h <;> simp [h])]

theorem onCrew_noSuch {needsClosed fieldsOk : Bool} {s : State} (body : CrewSlotNo → Crew → CommandEffect)
    (hp : needsClosed = true → s.plan.phase = .closed) (hv : badgeValid (word16 (s.arg 0) (s.arg 1)) = true)
    (hf : fieldsOk = true) (he : s.enrolled (word16 (s.arg 0) (s.arg 1)) = none) :
    onCrew needsClosed fieldsOk s body = refuseWith s .noSuch := by
  have hopen : ¬ (needsClosed = true ∧ s.plan.phase ≠ .closed) := fun ⟨hn, hc⟩ => hc (hp hn)
  rw [onCrew, if_neg hopen, if_neg (by simp [hv, hf])]
  simp only [he]

theorem onCrew_of_enrolled {needsClosed fieldsOk : Bool} {s : State} (body : CrewSlotNo → Crew → CommandEffect)
    (hp : needsClosed = true → s.plan.phase = .closed) (hv : badgeValid (word16 (s.arg 0) (s.arg 1)) = true)
    (hf : fieldsOk = true) {k : CrewSlotNo} {cr : Crew} (he : s.enrolled (word16 (s.arg 0) (s.arg 1)) = some k)
    (hcr : s.crew k = some cr) : onCrew needsClosed fieldsOk s body = body k cr := by
  have hopen : ¬ (needsClosed = true ∧ s.plan.phase ≠ .closed) := fun ⟨hn, hc⟩ => hc (hp hn)
  rw [onCrew, if_neg hopen, if_neg (by simp [hv, hf])]
  simp only [he, hcr]

/-! ## STAGE DUTY -/

/-- A staging code is 0, 1 or 2 (12.4). -/
theorem readStaging_isSome (n : Nat) : (readStaging n).isSome = decide (n ≤ 2) := by
  unfold readStaging
  split <;> simp_all
  omega

theorem stageDutyEffect_of_enrolled {s : State} {k : CrewSlotNo} {cr : Crew} {staged : Option Duty}
    (hv : badgeValid (word16 (s.arg 0) (s.arg 1)) = true) (he : s.enrolled (word16 (s.arg 0) (s.arg 1)) = some k)
    (hcr : s.crew k = some cr) (hd : readStaging (s.arg 2).toNat = some staged) :
    stageDutyEffect s =
      okWith (s.setCrew k (some { cr with staged := staged })) [byteOf k.val, byteOf (stagedCode cr.staged)] := by
  rw [stageDutyEffect, onCrew_of_enrolled _ (fun h => absurd h (by decide)) hv (by rw [hd]; rfl) he hcr]
  simp only [hd, modCrew_of_some hcr]

/-- ENROL and AMEND refuse an argument out of range first (R32). -/
theorem enrol_amend_badField {s : State} (h : CrewArgsBad s) :
    (CommandWaits 0x0B s → execEnrol s = .next (s.complete .badField [])) ∧
      (CommandWaits 0x0C s → execAmend s = .next (s.complete .badField [])) := by
  have hf := readCrewFields_of_bad h
  exact ⟨fun hw => runCommand_refused hw (by simp only [enrolEffect, hf]),
    fun hw => runCommand_refused hw (by simp only [amendEffect, hf])⟩

/-- Settles O41: the arguments are read by R32, and each command then goes by the badge's enrolment. -/
theorem enrolAmendAndStageDuty : Obligations.EnrolAmendAndStageDuty := by
  intro s b hb
  subst hb
  refine ⟨enrol_amend_badField, fun g z hv ht hg hz => ?_, fun hw => ⟨fun h => ?_, fun hv h2 hn => ?_, ?_⟩⟩
  · have hf := readCrewFields_of_good hv ht hg hz
    refine ⟨fun hw => ⟨fun he => ?_, fun he hfull => ?_, fun k he hk hl => ?_⟩, fun hw => ⟨fun he => ?_, fun k cr he hcr => ?_⟩⟩
    · exact runCommand_refused hw (enrolEffect_duplicate hf he)
    · exact runCommand_refused hw (enrolEffect_full hf he (lowestUnoccupied_eq_none hfull))
    · exact runCommand_answered hw (enrolEffect_of_vacancy hf he (lowestUnoccupied_eq_some hk hl)) rfl rfl
    · exact runCommand_refused hw (amendEffect_noSuch hf he)
    · exact runCommand_answered hw (amendEffect_of_enrolled hf he hcr) rfl rfl
  · refine runCommand_refused hw (onCrew_badField _ (fun h => absurd h (by decide)) (h.imp_right fun h2 => ?_))
    simpa [readStaging_isSome] using h2
  · exact runCommand_refused hw (onCrew_noSuch _ (fun h => absurd h (by decide)) hv (by simpa [readStaging_isSome] using h2) hn)
  · intro k cr staged hv he hcr hs
    refine runCommand_answered hw (stageDutyEffect_of_enrolled hv he hcr ?_) rfl rfl
    rcases hs with ⟨h, rfl⟩ | ⟨h, rfl⟩ | ⟨h, rfl⟩ <;> rw [h] <;> rfl

end Sys2Proof.Proofs.CrewRoster
end

section
/-! SUPPORT. What displacement can do: an induction over the operations that displace entries, and two facts that it gives. -/

namespace Sys2Proof.Proofs.CrewRoster

open Sys2Proof Sys2Proof.Machine

/-! ## The induction over displacement -/

/-- A relation between states that holds along every change that placing an entry and ending an event can make: the Send Queue
rewritten, a point made lamp-stale, and the loss of an offer whose PAGE is displaced (R90). -/
structure DisplacementClosed (R : State → State → Prop) : Prop where
  refl : ∀ s, R s s
  trans : ∀ {s t u}, R s t → R t u → R s u
  queue : ∀ (s : State) (q : SendQueue), R s { s with queue := q }
  stale : ∀ (s : State) (p : Point) (b : Bool), R s (s.setLampStale p b)
  loss : ∀ (s : State) (i : CallSlotNo) (k : CrewSlotNo) (c : Call), s.call i = some c → k ∈ c.offerees →
    R s (((s.endOffer i k (some .withdrawn)).giveTryBack i).waitIfNoOfferee i)

section
variable {R : State → State → Prop} (h : DisplacementClosed R)
include h

theorem DisplacementClosed.setEntries (s : State) (q : List Entry) : R s (s.setEntries q) := h.queue s _

theorem DisplacementClosed.reportDisplaced (s : State) (e : Entry) : R s (s.reportDisplaced e) := by
  unfold State.reportDisplaced
  split
  · split
    · exact h.refl s
    · split
      · rename_i i k hs
        obtain ⟨c, hc, hk⟩ := standingOffer_offeree hs
        exact h.loss s i k c hc hk
      · exact h.refl s
  · exact h.refl s
  · exact h.stale s _ _

theorem DisplacementClosed.displaceOne (keep : Entry → Bool) (s : State) : R s (s.displaceOne keep) := by
  unfold State.displaceOne
  split
  · exact h.trans (h.setEntries s _) (h.reportDisplaced _ _)
  · exact h.refl s

theorem DisplacementClosed.place (s : State) (e : Entry) : R s (s.place e) := by
  unfold State.place
  split
  · exact h.setEntries s _
  · split
    · exact h.trans (h.displaceOne _ s) (h.setEntries _ _)
    · exact h.reportDisplaced s e

theorem DisplacementClosed.offerLamp (s : State) (p : Point) (l : LampStates) (b : CallClass) : R s (s.offerLamp p l b) := by
  unfold State.offerLamp
  split
  · exact h.setEntries s _
  · exact h.place s _

theorem DisplacementClosed.lampRounds (before : State) (extra : List Point) (n : Nat) (done : List Point) (s : State) :
    R s (lampRounds before extra n done s).1 := by
  induction n generalizing done s with
  | zero => exact h.refl s
  | succ n ih =>
    unfold Machine.lampRounds
    split
    · exact h.refl s
    · exact h.trans (h.offerLamp s _ _ _) (ih _ _)

theorem DisplacementClosed.refreshLamps (s : State) (ps : List Point) : R s (s.refreshLamps ps) := by
  induction ps generalizing s with
  | nil => exact h.refl s
  | cons p ps ih => exact h.trans (h.setEntries s _) (ih _)

theorem DisplacementClosed.compareThrottle (s : State) : R s s.compareThrottle := by
  unfold State.compareThrottle
  split
  · exact h.queue s _
  · split
    · exact h.queue s _
    · exact h.refl s

theorem DisplacementClosed.settle (before : State) (extra : List Point) (after : State) :
    R after (settle before extra after) := by
  have hl : R after (lampUpdates before extra after) := h.trans (h.lampRounds before extra 96 [] after) (h.refreshLamps _ _)
  unfold Machine.settle throttleAtEnd
  split
  · exact hl
  · exact h.trans hl (h.compareThrottle _)

theorem DisplacementClosed.tellFormerHolder (s : State) (i : CallSlotNo) (k : CrewSlotNo) (reason : WithdrawReason) :
    R s (s.tellFormerHolder i k reason) := by
  unfold State.tellFormerHolder
  split
  · split
    · exact h.setEntries s _
    · unfold State.tellHolder
      split
      · exact h.place s _
      · exact h.refl s
  · exact h.refl s

end

/-! ## The parts of the frame -/

section
variable {s t : State}

theorem rest_of_spares (h : Spares s t) : KeepsRest s t := h.1

theorem calls_of_spares (h : Spares s t) : KeepsCalls s t (fun _ => False) := h.2.1

theorem crews_of_spares (h : Spares s t) : KeepsCrews s t (fun _ => False) := h.2.2.1

theorem port_of_spares (h : Spares s t) : t.port = s.port := by
  obtain ⟨-, -, -, port, -⟩ := h
  exact port

variable {except : CallSlotNo → Prop} {j : CallSlotNo} {c : Call}

theorem generation_of_keepsCalls (h : KeepsCalls s t except) (hj : ¬ except j) :
    (t.slot j).generation = (s.slot j).generation := (h j hj).1

theorem call_free_of_keepsCalls (h : KeepsCalls s t except) (hj : ¬ except j) (hc : s.call j = none) : t.call j = none :=
  (h j hj).2.1 hc

/-- A call without offers is as before. -/
theorem call_same_of_keepsCalls (h : KeepsCalls s t except) (hj : ¬ except j) (hc : s.call j = some c) (ho : c.offerees = []) :
    t.call j = some c := ((h j hj).2.2 c hc).1 ho

/-- A call with offers can have lost some. -/
theorem call_loss_of_keepsCalls (h : KeepsCalls s t except) (hj : ¬ except j) (hc : s.call j = some c) :
    ∃ d, t.call j = some d ∧ d.offerees.Sublist c.offerees ∧ (d.offerees = c.offerees → d = c) ∧
      d = { c with
        state := d.state, triesUsed := d.triesUsed, offerees := d.offerees, history := d.history, timer := d.timer } :=
  ((h j hj).2.2 c hc).2

/-- A crew without an offer is as before. -/
theorem crew_same_of_keepsCrews {exceptCrew : CrewSlotNo → Prop} {k : CrewSlotNo} {b : Crew} (h : KeepsCrews s t exceptCrew)
    (hk : ¬ exceptCrew k) (hb : s.crew k = some b) (ho : b.offer = none) : t.crew k = some b := by
  rcases (h k hk).2 b hb with ht | ht
  · exact ht
  · rw [ht, ← ho]

theorem crew_vacant_of_keepsCrews {exceptCrew : CrewSlotNo → Prop} {k : CrewSlotNo} (h : KeepsCrews s t exceptCrew)
    (hk : ¬ exceptCrew k) (hb : s.crew k = none) : t.crew k = none := (h k hk).1 hb

end

/-! ## The loss of an offer -/

/-- The frame of displacement is such a relation. -/
theorem displacementClosed_spares : DisplacementClosed Spares where
  refl := Spares.refl
  trans := Spares.trans
  queue s q := ⟨⟨rfl, rfl, rfl, rfl, rfl, rfl, rfl, rfl, rfl, rfl⟩, KeepsCalls.refl s _, KeepsCrews.refl s _, rfl, rfl, rfl, rfl⟩
  stale := spares_setLampStale
  loss s i k c hc hk := by
    have later := (offersOnly_giveTryBack (s.endOffer i k (some .withdrawn)) i).trans (offersOnly_waitIfNoOfferee _ i)
    refine OffersOnly.spares ((offersOnly_endOffer s i k _).trans later) (fun c' d hc' hd he => ?_)
    obtain rfl : c' = c := Option.some.inj (hc'.symm.trans hc)
    obtain ⟨-, -, -, -, -, -, -, -, loses, -⟩ := later
    obtain ⟨f, hf, hl⟩ := loses _ (call_endOffer_self hc)
    obtain rfl : f = d := Option.some.inj (hf.symm.trans hd)
    have := hl.1.subset (he ▸ hk)
    simp at this

/-- becomeWaiting changes the state and the timer of the call in its slot, and no other call. -/
theorem call_becomeWaiting (s : State) (i j : CallSlotNo) :
    (s.becomeWaiting i).call j =
      if j = i then (s.call i).map (fun c => { c.stopTimer with state := .waiting }) else s.call j := by
  have h := call_modCall s i j (fun c => { c.stopTimer with state := .waiting })
  unfold State.becomeWaiting
  simp only
  split
  · split
    · exact h
    · exact h
  · exact h

/-- A call keeps its offerees and its history, or is FREE on both sides. -/
def SameOffers (s t : State) : Prop :=
  ∀ j d, t.call j = some d → ∃ c, s.call j = some c ∧ d.offerees = c.offerees ∧ d.history = c.history

theorem SameOffers.refl (s : State) : SameOffers s s := fun _ d hd => ⟨d, hd, rfl, rfl⟩

theorem sameOffers_modCall (s : State) (i : CallSlotNo) (f : Call → Call)
    (hf : ∀ c, (f c).offerees = c.offerees ∧ (f c).history = c.history) : SameOffers s (s.modCall i f) := by
  intro j d hd
  rw [call_modCall] at hd
  split at hd
  · rename_i e
    subst e
    obtain ⟨c, hc, rfl⟩ := Option.map_eq_some_iff.mp hd
    exact ⟨c, hc, hf c⟩
  · exact ⟨d, hd, rfl, rfl⟩

theorem sameOffers_giveTryBack (s : State) (i : CallSlotNo) : SameOffers s (s.giveTryBack i) := by
  unfold State.giveTryBack
  split
  · split
    · exact sameOffers_modCall s i _ (fun _ => ⟨rfl, rfl⟩)
    · exact SameOffers.refl s
  · exact SameOffers.refl s

theorem sameOffers_becomeWaiting (s : State) (i : CallSlotNo) : SameOffers s (s.becomeWaiting i) := by
  intro j d hd
  rw [call_becomeWaiting] at hd
  split at hd
  · rename_i e
    subst e
    obtain ⟨c, hc, rfl⟩ := Option.map_eq_some_iff.mp hd
    exact ⟨c, hc, rfl, rfl⟩
  · exact ⟨d, hd, rfl, rfl⟩

theorem sameOffers_waitIfNoOfferee (s : State) (i : CallSlotNo) : SameOffers s (s.waitIfNoOfferee i) := by
  unfold State.waitIfNoOfferee
  split
  · split
    · exact sameOffers_becomeWaiting s i
    · exact SameOffers.refl s
  · exact SameOffers.refl s

theorem mem_addHistory {h : List HistoryEntry} {e x : HistoryEntry} (hx : x ∈ addHistory h e) : x ∈ h ∨ x = e := by
  unfold addHistory at hx
  split at hx
  · simp only [List.mem_append, List.mem_singleton] at hx
    exact hx.imp_left (List.mem_of_mem_drop)
  · simpa using hx

/-! ## A crew that is named nowhere -/

/-- No call offers to a crew slot, and no history names it. -/
def NamedNowhere (k : CrewSlotNo) (s : State) : Prop :=
  ∀ i c, s.call i = some c → k ∉ c.offerees ∧ ∀ e ∈ c.history, e.crew ≠ k

theorem NamedNowhere.of_sameOffers {k : CrewSlotNo} {s t : State} (h : NamedNowhere k s) (same : SameOffers s t) :
    NamedNowhere k t := by
  intro i d hd
  obtain ⟨c, hc, ho, hh⟩ := same i d hd
  rw [ho, hh]
  exact h i c hc

/-- A displaced offer is entered in the history under its own crew alone. -/
theorem NamedNowhere.endOffer {k l : CrewSlotNo} {s : State} (h : NamedNowhere k s) (i : CallSlotNo) (o : OfferOutcome)
    (hl : l ≠ k) : NamedNowhere k (s.endOffer i l (some o)) := by
  intro j d hd
  simp only [State.endOffer, call_modCrew, call_modCall] at hd
  split at hd
  · obtain ⟨c, hc, rfl⟩ := Option.map_eq_some_iff.mp hd
    obtain ⟨ho, hh⟩ := h i c hc
    refine ⟨fun hm => ho (List.mem_of_mem_filter hm), fun e he => ?_⟩
    rcases mem_addHistory he with he | rfl
    · exact hh e he
    · exact hl
  · exact h j d hd

theorem displacementClosed_namedNowhere (k : CrewSlotNo) :
    DisplacementClosed (fun s t => NamedNowhere k s → NamedNowhere k t) where
  refl _ := id
  trans h h' := h' ∘ h
  queue _ _ := id
  stale _ _ _ := id
  loss s i l c hc hl h := by
    have hlk : l ≠ k := fun e => (h i c hc).1 (e ▸ hl)
    exact ((h.endOffer i .withdrawn hlk).of_sameOffers (sameOffers_giveTryBack _ i)).of_sameOffers
      (sameOffers_waitIfNoOfferee _ i)

/-! ## The dispatch list -/

/-- A list of calls in bands, in which the calls of a set stand last in theirs. -/
def LastInBand (rank : CallSlotNo → Nat) (new : CallSlotNo → Prop) (l : List CallSlotNo) : Prop :=
  l.Pairwise (fun x y => rank y ≤ rank x ∧ (new x → ¬ new y → rank y < rank x))

theorem mem_joinBand {rank : CallSlotNo → Nat} {i j : CallSlotNo} {l : List CallSlotNo} :
    j ∈ joinBand rank i l ↔ j = i ∨ j ∈ l := by
  unfold joinBand
  conv => rhs; rw [← List.takeWhile_append_dropWhile (p := fun j => decide (rank i ≤ rank j)) (l := l)]
  simp only [List.mem_append, List.mem_cons]
  exact or_left_comm

theorem lastInBand_joinBand {rank : CallSlotNo → Nat} {new : CallSlotNo → Prop} {i : CallSlotNo} {l : List CallSlotNo}
    (hi : new i) (h : LastInBand rank new l) : LastInBand rank new (joinBand rank i l) := by
  induction l with
  | nil => simp [joinBand, LastInBand]
  | cons a l ih =>
    obtain ⟨ha, hl⟩ := List.pairwise_cons.mp h
    by_cases c : rank i ≤ rank a
    · have e : joinBand rank i (a :: l) = a :: joinBand rank i l := by simp [joinBand, c]
      rw [e]
      refine List.pairwise_cons.mpr ⟨fun x hx => ?_, ih hl⟩
      rcases mem_joinBand.mp hx with rfl | hx
      · exact ⟨c, fun _ hn => absurd hi hn⟩
      · exact ha x hx
    · have e : joinBand rank i (a :: l) = i :: a :: l := by simp [joinBand, c]
      rw [e]
      refine List.pairwise_cons.mpr ⟨fun x hx => ?_, h⟩
      have hx' : rank x ≤ rank a := by
        rcases List.mem_cons.mp hx with rfl | hx
        · exact Nat.le_refl _
        · exact (ha x hx).1
      exact ⟨by omega, fun _ _ => by omega⟩

/-- The calls of a set, and no others, can have joined the dispatch list, each at the tail of its band (R69). -/
structure JoinsOnly (set : CallSlotNo → Prop) (s t : State) : Prop where
  band : t.bandOf = s.bandOf
  keeps : ∀ j ∈ s.disp.list, j ∈ t.disp.list
  last : ∀ new : CallSlotNo → Prop, (∀ i, set i → new i) → LastInBand s.bandOf new s.disp.list →
    LastInBand s.bandOf new t.disp.list

theorem JoinsOnly.of_same {set : CallSlotNo → Prop} {s t : State} (hb : t.bandOf = s.bandOf) (hd : t.disp.list = s.disp.list) :
    JoinsOnly set s t :=
  ⟨hb, fun _ hj => hd ▸ hj, fun _ _ h => hd ▸ h⟩

theorem JoinsOnly.refl (set : CallSlotNo → Prop) (s : State) : JoinsOnly set s s := .of_same rfl rfl

theorem JoinsOnly.trans {set : CallSlotNo → Prop} {s t u : State} (h : JoinsOnly set s t) (h' : JoinsOnly set t u) :
    JoinsOnly set s u :=
  ⟨h'.band.trans h.band, fun j hj => h'.keeps j (h.keeps j hj),
    fun new hn hl => h.band ▸ h'.last new hn (h.band.symm ▸ h.last new hn hl)⟩

theorem JoinsOnly.mono {set set' : CallSlotNo → Prop} {s t : State} (h : JoinsOnly set s t) (m : ∀ i, set i → set' i) :
    JoinsOnly set' s t :=
  ⟨h.band, h.keeps, fun new hn => h.last new (fun i hi => hn i (m i hi))⟩

theorem bandOf_modCall (s : State) (i : CallSlotNo) (f : Call → Call) (hf : ∀ c, (f c).cls = c.cls) :
    (s.modCall i f).bandOf = s.bandOf := by
  funext j
  unfold State.bandOf
  rw [call_modCall]
  by_cases e : j = i
  · subst e
    cases s.call j <;> simp [hf]
  · simp only [if_neg e]

theorem joinsOnly_modCall {set : CallSlotNo → Prop} (s : State) (i : CallSlotNo) (f : Call → Call)
    (hf : ∀ c, (f c).cls = c.cls) : JoinsOnly set s (s.modCall i f) :=
  .of_same (bandOf_modCall s i f hf) (by simp)

theorem joinsOnly_joinDispatch {set : CallSlotNo → Prop} (s : State) {i : CallSlotNo} (hi : set i) :
    JoinsOnly set s (s.joinDispatch i) := by
  refine ⟨rfl, fun j hj => ?_, fun new hn hl => ?_⟩
  · by_cases e : j = i
    · exact mem_joinBand.mpr (.inl e)
    · exact mem_joinBand.mpr (.inr (List.mem_filter.mpr ⟨hj, by simpa using e⟩))
  · exact lastInBand_joinBand (hn i hi) (hl.filter _)

theorem joinsOnly_becomeWaiting {set : CallSlotNo → Prop} (s : State) {i : CallSlotNo} (hi : set i) :
    JoinsOnly set s (s.becomeWaiting i) := by
  have h : JoinsOnly set s (s.modCall i (fun c => { c.stopTimer with state := .waiting })) :=
    joinsOnly_modCall s i _ (fun _ => rfl)
  unfold State.becomeWaiting
  simp only
  split
  · split
    · exact h.trans (joinsOnly_joinDispatch _ hi)
    · exact h
  · exact h

/-- A call that becomes WAITING and is not held stands in the dispatch list (R69). -/
theorem mem_list_becomeWaiting {s : State} {i : CallSlotNo} {c : Call} (hc : s.call i = some c) (hh : c.hold = none) :
    i ∈ (s.becomeWaiting i).disp.list := by
  have hm : (s.modCall i (fun c => { c.stopTimer with state := .waiting })).call i =
      some { c.stopTimer with state := .waiting } := by
    rw [call_modCall, if_pos rfl, hc, Option.map_some]
  have hn : ({ c.stopTimer with state := .waiting } : Call).hold.isNone = true := by simp [Call.stopTimer, hh]
  unfold State.becomeWaiting
  simp only [hm, hn, if_true]
  exact mem_joinBand.mpr (.inl rfl)

theorem joinsOnly_waitIfNoOfferee {set : CallSlotNo → Prop} (s : State) {i : CallSlotNo} (hi : set i) :
    JoinsOnly set s (s.waitIfNoOfferee i) := by
  unfold State.waitIfNoOfferee
  split
  · split
    · exact joinsOnly_becomeWaiting s hi
    · exact .refl _ s
  · exact .refl _ s

theorem joinsOnly_modCrew {set : CallSlotNo → Prop} (s : State) (k : CrewSlotNo) (f : Crew → Crew) :
    JoinsOnly set s (s.modCrew k f) :=
  .of_same (by funext j; simp [State.bandOf]) (by simp)

theorem joinsOnly_endOffer {set : CallSlotNo → Prop} (s : State) (i : CallSlotNo) (k : CrewSlotNo) (o : Option OfferOutcome) :
    JoinsOnly set s (s.endOffer i k o) := by
  unfold State.endOffer
  refine (joinsOnly_modCall s i _ ?_).trans (joinsOnly_modCrew _ k _)
  exact fun _ => rfl

theorem joinsOnly_giveTryBack {set : CallSlotNo → Prop} (s : State) (i : CallSlotNo) : JoinsOnly set s (s.giveTryBack i) := by
  unfold State.giveTryBack
  split
  · split
    · exact joinsOnly_modCall s i _ (fun _ => rfl)
    · exact .refl _ s
  · exact .refl _ s

/-! ## Calls with offers -/

/-- The call in a slot has offerees. -/
def HasOffers (s : State) (i : CallSlotNo) : Prop := ∃ c, s.call i = some c ∧ c.offerees ≠ []

/-- No call gains an offeree, and no slot a call. -/
def OffersShrink (s t : State) : Prop := ∀ j d, t.call j = some d → ∃ c, s.call j = some c ∧ ∀ k ∈ d.offerees, k ∈ c.offerees

theorem OffersShrink.refl (s : State) : OffersShrink s s := fun _ d hd => ⟨d, hd, fun _ => id⟩

theorem OffersShrink.trans {s t u : State} (h : OffersShrink s t) (h' : OffersShrink t u) : OffersShrink s u := by
  intro j e he
  obtain ⟨d, hd, hed⟩ := h' j e he
  obtain ⟨c, hc, hdc⟩ := h j d hd
  exact ⟨c, hc, fun k hk => hdc k (hed k hk)⟩

theorem OffersShrink.hasOffers {s t : State} (h : OffersShrink s t) {j : CallSlotNo} (hj : HasOffers t j) : HasOffers s j := by
  obtain ⟨d, hd, hne⟩ := hj
  obtain ⟨c, hc, hdc⟩ := h j d hd
  obtain ⟨k, hk⟩ := List.exists_mem_of_ne_nil _ hne
  exact ⟨c, hc, List.ne_nil_of_mem (hdc k hk)⟩

theorem SameOffers.shrink {s t : State} (h : SameOffers s t) : OffersShrink s t := fun j d hd => by
  obtain ⟨c, hc, ho, -⟩ := h j d hd
  exact ⟨c, hc, fun k hk => ho ▸ hk⟩

theorem offersShrink_of_spares {s t : State} (h : Spares s t) : OffersShrink s t := by
  intro j d hd
  cases hc : s.call j with
  | none =>
    rw [call_free_of_keepsCalls (calls_of_spares h) id hc] at hd
    cases hd
  | some c =>
    obtain ⟨d', hd', hsub, -⟩ := call_loss_of_keepsCalls (calls_of_spares h) id hc
    obtain rfl : d' = d := Option.some.inj (hd'.symm.trans hd)
    exact ⟨c, rfl, fun k hk => hsub.subset hk⟩

/-- No call has gained an offer, and only calls that had offers have joined the dispatch list. -/
structure JoinsOffered (s t : State) : Prop where
  shrink : OffersShrink s t
  joins : JoinsOnly (HasOffers s) s t

theorem JoinsOffered.trans {s t u : State} (h : JoinsOffered s t) (h' : JoinsOffered t u) : JoinsOffered s u :=
  ⟨h.shrink.trans h'.shrink, h.joins.trans (h'.joins.mono fun _ hi => h.shrink.hasOffers hi)⟩

theorem joinsOffered_modCrew (s : State) (k : CrewSlotNo) (f : Crew → Crew) : JoinsOffered s (s.modCrew k f) :=
  ⟨fun j d hd => ⟨d, (call_modCrew s k f j).symm.trans hd, fun _ => id⟩, joinsOnly_modCrew s k f⟩

theorem displacementClosed_joinsOffered : DisplacementClosed JoinsOffered where
  refl s := ⟨.refl s, .refl _ s⟩
  trans := JoinsOffered.trans
  queue s _ := ⟨OffersShrink.refl s, .of_same rfl rfl⟩
  stale s _ _ := ⟨OffersShrink.refl s, .of_same rfl rfl⟩
  loss s i k c hc hk := by
    have hi : HasOffers s i := ⟨c, hc, List.ne_nil_of_mem hk⟩
    exact ⟨offersShrink_of_spares (displacementClosed_spares.loss s i k c hc hk),
      ((joinsOnly_endOffer s i k _).trans (joinsOnly_giveTryBack _ i)).trans (joinsOnly_waitIfNoOfferee _ hi)⟩

end Sys2Proof.Proofs.CrewRoster
end

section
/-! SUPPORT. The Send Queue where it has room: entries join and nothing is displaced. What the end of an event then does, and
what pagers are told. -/

namespace Sys2Proof.Proofs.CrewRoster

open Sys2Proof Sys2Proof.Machine

/-! ## Joining with room -/

theorem place_of_room {s : State} (e : Entry) (h : s.queue.entries.length < 24) :
    s.place e = s.setEntries (joinTail e s.queue.entries) := if_pos h

/-- An entry that a test refuses joins unseen by the test. -/
theorem filter_joinTail_of_false {p : Entry → Bool} {e : Entry} (he : p e = false) (q : List Entry) :
    (joinTail e q).filter p = q.filter p := by
  unfold joinTail
  rw [List.filter_append, List.filter_cons_of_neg (by simp [he]), ← List.filter_append, List.takeWhile_append_dropWhile]

theorem length_filter_joinTail_of_true {p : Entry → Bool} {e : Entry} (he : p e = true) (q : List Entry) :
    ((joinTail e q).filter p).length = (q.filter p).length + 1 := by
  conv =>
    rhs
    rw [← List.takeWhile_append_dropWhile (p := fun y : Entry => decide (classRank e.band ≤ classRank y.band)) (l := q)]
  unfold joinTail
  simp only [List.filter_append, List.filter_cons_of_pos he, List.length_append, List.length_cons]
  omega

/-! ## Lamp updates with room -/

/-- An entry that carries lamp states. -/
def isLampEntry (e : Entry) : Bool :=
  match e.content with
  | .lamp _ _ => true
  | .page _ | .withdraw _ => false

/-- Nothing but the Send Queue has changed, and in it nothing but LAMPs. -/
def LampsOnly (s t : State) : Prop :=
  t = { s with queue := t.queue } ∧
    t.queue.entries.filter (fun e => !isLampEntry e) = s.queue.entries.filter (fun e => !isLampEntry e)

theorem LampsOnly.refl (s : State) : LampsOnly s s := ⟨rfl, rfl⟩

theorem LampsOnly.trans {s t u : State} (h : LampsOnly s t) (h' : LampsOnly t u) : LampsOnly s u :=
  ⟨by rw [h'.1, h.1], h'.2.trans h.2⟩

theorem LampsOnly.calls {s t : State} (h : LampsOnly s t) : t.calls = s.calls := by rw [h.1]

theorem LampsOnly.crew {s t : State} (h : LampsOnly s t) (k : CrewSlotNo) : t.crew k = s.crew k := by rw [h.1]; rfl

theorem LampsOnly.call {s t : State} (h : LampsOnly s t) (i : CallSlotNo) : t.call i = s.call i := by rw [h.1]; rfl

theorem LampsOnly.slot {s t : State} (h : LampsOnly s t) (i : CallSlotNo) : t.slot i = s.slot i := by rw [h.1]; rfl

theorem LampsOnly.disp {s t : State} (h : LampsOnly s t) : t.disp = s.disp := by rw [h.1]

theorem LampsOnly.changedPoints {s t : State} (h : LampsOnly s t) (before : State) :
    changedPoints before t = changedPoints before s := by
  simp only [Machine.changedPoints, h.slot]

theorem LampsOnly.lampStates {s t : State} (h : LampsOnly s t) (p : Point) : t.lampStates p = s.lampStates p := by rw [h.1]; rfl

theorem LampsOnly.lampBand {s t : State} (h : LampsOnly s t) (p : Point) : t.lampBand p = s.lampBand p := by rw [h.1]; rfl

theorem lampsOnly_setEntries {s : State} {q : List Entry}
    (h : q.filter (fun e => !isLampEntry e) = s.queue.entries.filter (fun e => !isLampEntry e)) :
    LampsOnly s (s.setEntries q) := ⟨rfl, h⟩

theorem lampsOnly_compareThrottle (s : State) : LampsOnly s s.compareThrottle := by
  refine ⟨?_, by rw [compareThrottle_entries]⟩
  unfold State.compareThrottle
  split
  · rfl
  · split <;> rfl

theorem isLampEntry_of_isLamp {p : Point} {e : Entry} (h : e.isLamp p = true) : isLampEntry e = true := by
  unfold Entry.isLamp at h
  unfold isLampEntry
  cases hc : e.content <;> simp_all

theorem isLampEntry_of_pendingLamp {p : Point} {e : Entry} (h : e.pendingLamp p = true) : isLampEntry e = true :=
  isLampEntry_of_isLamp (Bool.and_eq_true_iff.mp h).2

/-- A change of some LAMPs into others is not seen among the other entries. -/
theorem filter_rewriteLamps {test : Entry → Bool} {f : Entry → Entry} (ht : ∀ e, test e = true → isLampEntry e = true)
    (hf : ∀ e, test e = true → isLampEntry (f e) = true) (q : List Entry) :
    (q.map (fun e => if test e then f e else e)).filter (fun e => !isLampEntry e) = q.filter (fun e => !isLampEntry e) := by
  induction q with
  | nil => rfl
  | cons e q ih =>
    by_cases h : test e = true
    · simp [ht e h, hf e h, h, ih]
    · simp [List.filter_cons, h, ih]

/-- A pending LAMP of a point with these states in this band. -/
def PendingLampIn (q : List Entry) (p : Point) (states : LampStates) (band : CallClass) : Prop :=
  ∃ e ∈ q, e.inFlight = false ∧ e.content = .lamp p states ∧ e.band = band

theorem lampQueued_iff (s : State) (p : Point) :
    LampQueued s p ↔ PendingLampIn s.queue.entries p (s.lampStates p) (s.lampBand p) := Iff.rfl

theorem lampQueued_of_lampsOnly {s t : State} (h : LampsOnly s t) {p : Point}
    (hp : PendingLampIn t.queue.entries p (s.lampStates p) (s.lampBand p)) : LampQueued t p := by
  rw [lampQueued_iff, h.lampStates, h.lampBand]
  exact hp

theorem pendingLamp_of_content {e : Entry} {p : Point} {l : LampStates} (hf : e.inFlight = false) (hc : e.content = .lamp p l) :
    e.pendingLamp p = true := by
  simp [Entry.pendingLamp, Entry.pending, Entry.isLamp, hf, hc]

theorem not_pendingLamp_of_content {e : Entry} {p q : Point} {l : LampStates} (hc : e.content = .lamp p l) (hpq : p ≠ q) :
    e.pendingLamp q = false := by
  simp [Entry.pendingLamp, Entry.isLamp, hc, hpq]

theorem PendingLampIn.joinTail {q : List Entry} {p : Point} {l : LampStates} {b : CallClass} (h : PendingLampIn q p l b)
    (e : Entry) : PendingLampIn (joinTail e q) p l b := by
  obtain ⟨x, hx, rest⟩ := h
  exact ⟨x, mem_joinTail.mpr (.inr hx), rest⟩

/-- The refreshing of the LAMPs of one point leaves another point's pending LAMP, and one with the same states. -/
theorem PendingLampIn.rewrite {q : List Entry} {p r : Point} {l m : LampStates} {b : CallClass} (h : PendingLampIn q p l b)
    (same : p = r → l = m) :
    PendingLampIn (q.map (fun x => if x.pendingLamp r then { x with content := .lamp r m } else x)) p l b := by
  obtain ⟨e, he, hf, hc, hb⟩ := h
  refine ⟨_, List.mem_map_of_mem he, ?_⟩
  by_cases hpr : p = r
  · obtain rfl := same hpr
    subst hpr
    simp [pendingLamp_of_content hf hc, hf, hb]
  · simp [not_pendingLamp_of_content hc hpr, hf, hc, hb]

theorem PendingLampIn.coalesce {q : List Entry} {p r : Point} {l m : LampStates} {b c : CallClass} {e : Entry}
    (h : PendingLampIn q p l b) (hpr : p ≠ r) : PendingLampIn (coalesceLamp r m c e q) p l b := by
  unfold coalesceLamp
  split
  · exact h.rewrite (fun heq => absurd heq hpr)
  · obtain ⟨x, hx, hf, hc, hb⟩ := h
    exact PendingLampIn.joinTail
      ⟨x, List.mem_filter.mpr ⟨hx, by simp [not_pendingLamp_of_content hc hpr]⟩, hf, hc, hb⟩ _

/-- A LAMP that coalesces leaves its own states and band behind. -/
theorem pendingLampIn_coalesce {q : List Entry} {p : Point} {l : LampStates} {b : CallClass} {e : Entry} (he : e ∈ q)
    (hp : e.pendingLamp p = true) : PendingLampIn (coalesceLamp p l b e q) p l b := by
  have hf : e.inFlight = false := by simpa [Entry.pending] using (Bool.and_eq_true_iff.mp hp).1
  unfold coalesceLamp
  split
  · rename_i hb
    exact ⟨_, List.mem_map_of_mem he, by simp [hp, hf, hb]⟩
  · exact ⟨_, mem_joinTail.mpr (.inl rfl), hf, rfl, rfl⟩

theorem filter_coalesceLamp {p : Point} {l : LampStates} {b : CallClass} {e : Entry} {q : List Entry} :
    (coalesceLamp p l b e q).filter (fun e => !isLampEntry e) = q.filter (fun e => !isLampEntry e) := by
  unfold coalesceLamp
  split
  · exact filter_rewriteLamps (test := fun e => e.pendingLamp p) (f := fun x => { x with content := .lamp p l })
      (fun _ => isLampEntry_of_pendingLamp) (fun _ _ => rfl) q
  · rw [filter_joinTail_of_false (by simp [isLampEntry]), List.filter_filter]
    refine List.filter_congr (fun x _ => ?_)
    cases hx : x.pendingLamp p with
    | false => simp
    | true => simp [isLampEntry_of_pendingLamp hx]

/-- A lamp update where the Send Queue has room: the LAMP joins or coalesces, and other points' LAMPs stay. -/
theorem lampUpdate_of_room {s : State} (p : Point) (h : s.queue.entries.length < 24) :
    LampsOnly s (s.lampUpdate p) ∧ (s.lampUpdate p).queue.entries.length ≤ s.queue.entries.length + 1 ∧
      LampQueued (s.lampUpdate p) p ∧ ∀ r, r ≠ p → LampQueued s r → LampQueued (s.lampUpdate p) r := by
  unfold State.lampUpdate State.offerLamp
  split
  · rename_i e he
    have hm := List.mem_of_find?_eq_some he
    have hp : e.pendingLamp p = true := by simpa using List.find?_some he
    have hl : LampsOnly s (s.setEntries (coalesceLamp p (s.lampStates p) (s.lampBand p) e s.queue.entries)) :=
      lampsOnly_setEntries filter_coalesceLamp
    exact ⟨hl, Nat.le_succ_of_le (length_coalesceLamp ⟨e, hm, hp⟩), lampQueued_of_lampsOnly hl (pendingLampIn_coalesce hm hp),
      fun r hr hq => lampQueued_of_lampsOnly hl (PendingLampIn.coalesce hq hr)⟩
  · rw [place_of_room _ h]
    have hl : LampsOnly s
        (s.setEntries (joinTail (Entry.fresh (.lamp p (s.lampStates p)) (s.lampBand p)) s.queue.entries)) :=
      lampsOnly_setEntries (filter_joinTail_of_false (by simp [isLampEntry, Entry.fresh]) _)
    exact ⟨hl, by simp, lampQueued_of_lampsOnly hl ⟨_, mem_joinTail.mpr (.inl rfl), rfl, rfl, rfl⟩,
      fun r _ hq => lampQueued_of_lampsOnly hl (PendingLampIn.joinTail hq _)⟩

theorem lowestPoint_mem {l : List Point} {p : Point} (h : lowestPoint l = some p) : p ∈ l := by
  induction l generalizing p with
  | nil => simp [lowestPoint] at h
  | cons a l ih =>
    unfold lowestPoint at h
    split at h
    · rename_i q hq
      obtain rfl := Option.some.inj h
      split
      · exact List.mem_cons_self
      · exact List.mem_cons_of_mem _ (ih hq)
    · obtain rfl := Option.some.inj h
      exact List.mem_cons_self

theorem lowestPoint_eq_none {l : List Point} (h : lowestPoint l = none) : l = [] := by
  cases l with
  | nil => rfl
  | cons a l =>
    unfold lowestPoint at h
    split at h <;> cases h

/-- The points that a round of lamp updates has yet to treat. -/
def pointsLeft (before : State) (done : List Point) (s : State) : Finset Point :=
  (changedPoints before s).toFinset \ done.toFinset

/-- The rounds of lamp updates where the Send Queue has room for each point left: each point is sent its lamps. -/
theorem lampRounds_of_room (before : State) (n : Nat) (done : List Point) (s : State)
    (hroom : s.queue.entries.length + (pointsLeft before done s).card ≤ 24) (hfuel : (pointsLeft before done s).card ≤ n)
    (hdone : ∀ p ∈ done, LampQueued s p) :
    LampsOnly s (lampRounds before [] n done s).1 ∧
      (∀ p ∈ (lampRounds before [] n done s).2, LampQueued (lampRounds before [] n done s).1 p) ∧
      ∀ p ∈ changedPoints before s, p ∈ (lampRounds before [] n done s).2 := by
  induction n generalizing done s with
  | zero =>
    refine ⟨.refl s, hdone, fun p hp => ?_⟩
    have hempty : pointsLeft before done s = ∅ := Finset.card_eq_zero.mp (Nat.le_zero.mp hfuel)
    simpa [lampRounds] using Finset.sdiff_eq_empty_iff_subset.mp hempty (List.mem_toFinset.mpr hp)
  | succ n ih =>
    unfold lampRounds
    split
    · rename_i hnone
      refine ⟨.refl s, hdone, fun p hp => ?_⟩
      have hall := List.filter_eq_nil_iff.mp (lowestPoint_eq_none hnone) p (by simpa using hp)
      simpa using hall
    · rename_i p hsome
      obtain ⟨hp, hnew⟩ := List.mem_filter.mp (lowestPoint_mem hsome)
      have hp : p ∈ changedPoints before s := by simpa using hp
      have hnew : p ∉ done := by simpa using hnew
      have hleft : p ∈ pointsLeft before done s := by simp [pointsLeft, hp, hnew]
      have hpos := Finset.card_pos.mpr ⟨p, hleft⟩
      obtain ⟨hlamps, hlen, hself, hothers⟩ := lampUpdate_of_room (s := s) p (by omega)
      have herase : pointsLeft before (p :: done) (s.lampUpdate p) = (pointsLeft before done s).erase p := by
        ext q
        simp only [pointsLeft, hlamps.changedPoints, List.toFinset_cons, Finset.mem_sdiff, List.mem_toFinset,
          Finset.mem_insert, Finset.mem_erase, not_or]
        exact and_left_comm
      have hcard := Finset.card_erase_of_mem hleft
      rw [← herase] at hcard
      obtain ⟨hl, hq, hc⟩ := ih (p :: done) (s.lampUpdate p) (by omega) (by omega) (fun q hq => by
        by_cases e : q = p
        · exact e ▸ hself
        · exact hothers q e (hdone q ((List.mem_cons.mp hq).resolve_left e)))
      exact ⟨hlamps.trans hl, hq, fun q hq => hc q (by rw [hlamps.changedPoints]; exact hq)⟩

theorem refreshLamps_lampsOnly (s : State) (ps : List Point) :
    LampsOnly s (s.refreshLamps ps) ∧ ∀ p, LampQueued s p → LampQueued (s.refreshLamps ps) p := by
  induction ps generalizing s with
  | nil => exact ⟨.refl s, fun _ => id⟩
  | cons r ps ih =>
    have hl : LampsOnly s (s.setEntries (s.queue.entries.map
        (fun x => if x.pendingLamp r then { x with content := .lamp r (s.lampStates r) } else x))) :=
      lampsOnly_setEntries (filter_rewriteLamps (test := fun e => e.pendingLamp r)
        (f := fun x => { x with content := .lamp r (s.lampStates r) }) (fun _ => isLampEntry_of_pendingLamp) (fun _ _ => rfl) _)
    obtain ⟨hl', hq'⟩ := ih _
    exact ⟨hl.trans hl', fun p hp => hq' p (lampQueued_of_lampsOnly hl
      (PendingLampIn.rewrite ((lampQueued_iff s p).mp hp) (fun e => e ▸ rfl)))⟩

/-- The end of an event where the Send Queue has room for a LAMP to each point whose calls have changed. -/
theorem settle_of_room {before after : State}
    (h : after.queue.entries.length + (changedPoints before after).toFinset.card ≤ 24) :
    LampsOnly after (settle before [] after) ∧ ∀ p ∈ changedPoints before after, LampQueued (settle before [] after) p := by
  have hleft : pointsLeft before [] after = (changedPoints before after).toFinset := by simp [pointsLeft]
  have hcard : (changedPoints before after).toFinset.card ≤ 96 := (Finset.card_le_univ _).trans_eq (by simp)
  obtain ⟨hr, hq, hc⟩ := lampRounds_of_room before 96 [] after (by rw [hleft]; exact h) (by rw [hleft]; exact hcard) (by simp)
  obtain ⟨hf, hk⟩ := refreshLamps_lampsOnly (lampRounds before [] 96 [] after).1 (lampRounds before [] 96 [] after).2
  have hall : ∀ p ∈ changedPoints before after, LampQueued (lampUpdates before [] after) p :=
    fun p hp => hk p (hq p (hc p hp))
  unfold settle throttleAtEnd
  split
  · exact ⟨hr.trans hf, hall⟩
  · have hcomp := lampsOnly_compareThrottle (lampUpdates before [] after)
    exact ⟨(hr.trans hf).trans hcomp, fun p hp => lampQueued_of_lampsOnly hcomp
      (by rw [compareThrottle_entries]; exact hall p hp)⟩

/-- The point of an origin, if it is one. -/
def originPoint : Origin → Option Point
  | .point p => some p
  | .desk _ => none

/-- The lamps that show a slot are those of its call's point. -/
theorem originPoint_of_mem_lampPoint {x : CallSlot} {p : Point} (hp : p ∈ lampPoint x) :
    ∃ c, x.call = some c ∧ originPoint c.origin = some p := by
  unfold lampPoint at hp
  split at hp
  · rename_i c hc
    split at hp
    · rename_i q hq
      split at hp
      · exact ⟨c, hc, by rw [hq, List.mem_singleton.mp hp]; rfl⟩
      · simp at hp
    · simp at hp
  · simp at hp

/-- An event that changes the lamps of the calls in some slots, none of which gets another origin, asks for no more lamp updates
than there are slots. -/
theorem card_changedPoints_le {before after : State} (slots : List CallSlotNo)
    (hsame : ∀ j, j ∉ slots → lampView (after.slot j) = lampView (before.slot j))
    (horigin : ∀ j d, after.call j = some d → ∃ c, before.call j = some c ∧ d.origin = c.origin) :
    (changedPoints before after).toFinset.card ≤ slots.length := by
  have hsub : (changedPoints before after).toFinset ⊆
      (slots.filterMap (fun j => (before.call j).bind (fun c => originPoint c.origin))).toFinset := by
    intro p hp
    obtain ⟨j, -, hj⟩ := List.mem_flatMap.mp (List.mem_toFinset.mp hp)
    split at hj
    · simp at hj
    · rename_i hview
      have hslot : j ∈ slots := by
        by_contra hn
        exact hview (hsame j hn).symm
      have hc : ∃ c, before.call j = some c ∧ originPoint c.origin = some p := by
        rcases List.mem_append.mp hj with hj | hj
        · exact originPoint_of_mem_lampPoint hj
        · obtain ⟨d, hd, ho⟩ := originPoint_of_mem_lampPoint hj
          obtain ⟨c, hc, hdc⟩ := horigin j d hd
          exact ⟨c, hc, by rw [← hdc, ho]⟩
      obtain ⟨c, hc, ho⟩ := hc
      exact List.mem_toFinset.mpr (List.mem_filterMap.mpr ⟨j, hslot, by rw [hc, Option.bind_some, ho]⟩)
  exact (Finset.card_le_card hsub).trans ((List.toFinset_card_le _).trans (List.length_filterMap_le _ _))

/-- The point of a live call that moves to another state is sent its lamps. -/
theorem mem_changedPoints {before after : State} {i : CallSlotNo} {c d : Call} {p : Point} (hc : before.call i = some c)
    (hd : after.call i = some d) (hlive : c.state ≠ .closed) (hstate : d.state ≠ c.state) (hp : c.origin = .point p) :
    p ∈ changedPoints before after := by
  refine List.mem_flatMap.mpr ⟨i, List.mem_finRange i, ?_⟩
  have hc' : (before.slot i).call = some c := hc
  have hd' : (after.slot i).call = some d := hd
  have hlive' : (c.state != .closed) = true := by simpa using hlive
  have hview : lampView (before.slot i) ≠ lampView (after.slot i) := by
    simp only [lampView, hc', hd', Call.live, hlive', if_true]
    intro h
    obtain ⟨-, hview⟩ := Option.ite_none_right_eq_some.mp h.symm
    simp only [Option.some.injEq, Prod.mk.injEq] at hview
    obtain ⟨-, -, hsame, -⟩ := hview
    exact hstate hsame
  rw [if_neg hview]
  exact List.mem_append_left _ (by simp [lampPoint, hc', hp, Call.live, hlive])

/-! ## The entries of one pair of tag and badge -/

/-- A PAGE or a WITHDRAW for a pair of tag and badge. -/
def ofPair (tag : Tag) (b : Badge) (e : Entry) : Bool := e.isPage tag b || e.isWithdraw tag b

/-- The entries of a pair are as before, in their order. -/
def PairKept (s t : State) (tag : Tag) (b : Badge) : Prop :=
  t.queue.entries.filter (ofPair tag b) = s.queue.entries.filter (ofPair tag b)

theorem PairKept.trans {s t u : State} {tag : Tag} {b : Badge} (h : PairKept s t tag b) (h' : PairKept t u tag b) :
    PairKept s u tag b := Eq.trans h' h

section
variable {s t : State} {tag : Tag} {b : Badge}

/-- What is so of some entry of a pair stays so while the pair is kept. -/
theorem PairKept.exists_iff (h : PairKept s t tag b) {P : Entry → Prop} (hP : ∀ e, P e → ofPair tag b e = true) :
    (∃ e ∈ t.queue.entries, P e) ↔ ∃ e ∈ s.queue.entries, P e := by
  have key (q : List Entry) : (∃ e ∈ q, P e) ↔ ∃ e ∈ q.filter (ofPair tag b), P e :=
    ⟨fun ⟨e, he, hp⟩ => ⟨e, List.mem_filter.mpr ⟨he, hP e hp⟩, hp⟩, fun ⟨e, he, hp⟩ => ⟨e, List.mem_of_mem_filter he, hp⟩⟩
  rw [key t.queue.entries, key s.queue.entries, h]

theorem PairKept.forall_iff (h : PairKept s t tag b) {P : Entry → Prop} (hP : ∀ e, ¬ P e → ofPair tag b e = true) :
    (∀ e ∈ t.queue.entries, P e) ↔ ∀ e ∈ s.queue.entries, P e := by
  have := not_congr (h.exists_iff (P := fun e => ¬ P e) hP)
  simpa only [not_exists, not_and, not_not] using this

theorem ofPair_of_pendingPage {e : Entry} (h : e.pendingPage tag b = true) : ofPair tag b e = true := by
  simp [ofPair, (Bool.and_eq_true_iff.mp h).2]

theorem ofPair_of_isPage {e : Entry} (h : e.isPage tag b = true) : ofPair tag b e = true := by simp [ofPair, h]

theorem ofPair_of_isWithdraw {e : Entry} (h : e.isWithdraw tag b = true) : ofPair tag b e = true := by simp [ofPair, h]

theorem PairKept.filter_isWithdraw (h : PairKept s t tag b) :
    t.queue.entries.filter (Entry.isWithdraw tag b) = s.queue.entries.filter (Entry.isWithdraw tag b) := by
  have key (q : List Entry) : q.filter (Entry.isWithdraw tag b) = (q.filter (ofPair tag b)).filter (Entry.isWithdraw tag b) := by
    rw [List.filter_filter]
    refine List.filter_congr (fun e _ => ?_)
    cases he : e.isWithdraw tag b <;> simp [ofPair, he]
  rw [key, key s.queue.entries, h]

theorem isWithdraw_fresh (reason : WithdrawReason) (cls : CallClass) :
    (Entry.fresh (.withdraw { tag := tag, badge := b, reason := reason, cls := cls }) cls).isWithdraw tag b = true := by
  simp [Entry.fresh, Entry.isWithdraw]

end

section
variable {s s' t t' : State} {tag : Tag} {b : Badge} {cls : CallClass} {reason : WithdrawReason}

theorem noNewWithdraw_congr (hs : PairKept s s' tag b) (ht : PairKept t t' tag b) (h : NoNewWithdraw s t tag b) :
    NoNewWithdraw s' t' tag b := by
  unfold NoNewWithdraw
  rw [ht.filter_isWithdraw, hs.filter_isWithdraw]
  exact h

theorem oneNewWithdraw_congr (hs : PairKept s s' tag b) (ht : PairKept t t' tag b)
    (h : OneNewWithdraw s t tag b cls reason) : OneNewWithdraw s' t' tag b cls reason := by
  obtain ⟨hmem, hlen⟩ := h
  refine ⟨?_, by rw [ht.filter_isWithdraw, hs.filter_isWithdraw]; exact hlen⟩
  have hpair := ofPair_of_isWithdraw (isWithdraw_fresh (tag := tag) (b := b) reason cls)
  have hm := List.mem_filter.mpr ⟨hmem, hpair⟩
  rw [← ht] at hm
  exact List.mem_of_mem_filter hm

/-- What a former offeree's pager is told is told by the entries of its pair alone. -/
theorem pagerTold_congr {i : CallSlotNo} (htag : s'.tagOf i = s.tagOf i) (hs : PairKept s s' (s.tagOf i) b)
    (ht : PairKept t t' (s.tagOf i) b) (h : PagerTold s t i b cls reason) : PagerTold s' t' i b cls reason := by
  obtain ⟨hnone, hunseen, hseen⟩ := h
  have hpage : ∀ e : Entry, ¬ e.pendingPage (s.tagOf i) b = false → ofPair (s.tagOf i) b e = true :=
    fun e he => ofPair_of_pendingPage (by simpa using he)
  have hflight : ∀ e : Entry, ¬ (e.inFlight = true → e.isPage (s.tagOf i) b = false) → ofPair (s.tagOf i) b e = true :=
    fun e he => ofPair_of_isPage (by simpa using (Classical.not_imp.mp he).2)
  unfold PagerTold
  rw [htag, ht.forall_iff hpage, hs.exists_iff (fun _ => ofPair_of_pendingPage), hs.forall_iff hflight, hs.forall_iff hpage,
    hs.exists_iff (fun _ he => ofPair_of_isPage he.2)]
  exact ⟨hnone, fun hp hf => noNewWithdraw_congr hs ht (hunseen hp hf), fun hp => oneNewWithdraw_congr hs ht (hseen hp)⟩

/-- What a former holder is told is told by the entries of its pair alone. -/
theorem formerHolderTold_congr {i : CallSlotNo} (htag : s'.tagOf i = s.tagOf i) (hs : PairKept s s' (s.tagOf i) b)
    (ht : PairKept t t' (s.tagOf i) b) (h : FormerHolderTold s t i b cls reason) : FormerHolderTold s' t' i b cls reason := by
  obtain ⟨hassigned, helse⟩ := h
  have hpage : ∀ e : Entry, ¬ (e.pendingPage (s.tagOf i) b = true → e.isAssigned = false) → ofPair (s.tagOf i) b e = true :=
    fun e he => ofPair_of_pendingPage (Classical.not_imp.mp he).1
  unfold FormerHolderTold
  rw [htag, hs.exists_iff (fun _ he => ofPair_of_pendingPage he.1), ht.forall_iff hpage, hs.forall_iff hpage]
  exact ⟨fun ha => (hassigned ha).imp_right (noNewWithdraw_congr hs ht), fun ha => oneNewWithdraw_congr hs ht (helse ha)⟩

end

/-- Lamp updates leave every pair alone. -/
theorem LampsOnly.pairKept {s t : State} (h : LampsOnly s t) (tag : Tag) (b : Badge) : PairKept s t tag b := by
  have key (q : List Entry) : q.filter (ofPair tag b) = (q.filter (fun e => !isLampEntry e)).filter (ofPair tag b) := by
    rw [List.filter_filter]
    refine List.filter_congr (fun e _ => ?_)
    cases hc : e.content <;> simp [isLampEntry, ofPair, Entry.isPage, Entry.isWithdraw, hc]
  unfold PairKept
  rw [key, key s.queue.entries, h.2]

/-! ## Telling a pager with room -/

/-- An entry of one pair is of no other. -/
theorem ofPair_false_of_ne {tag tag' : Tag} {b b' : Badge} {e : Entry} (h : ofPair tag b e = true) (hne : tag ≠ tag') :
    ofPair tag' b' e = false := by
  unfold ofPair Entry.isPage Entry.isWithdraw at *
  cases hc : e.content <;> simp_all

/-- Two changes of the entries of one pair are not seen at another: some are taken out, and one may join. -/
theorem filter_ofPair_other {tag tag' : Tag} {b b' : Badge} {test : Entry → Bool} (hne : tag ≠ tag')
    (ht : ∀ e, test e = true → ofPair tag b e = true) (q : List Entry) :
    (q.filter (fun e => !test e)).filter (ofPair tag' b') = q.filter (ofPair tag' b') := by
  rw [List.filter_filter]
  refine List.filter_congr (fun e _ => ?_)
  cases he : test e with
  | false => simp
  | true => simp [ofPair_false_of_ne (ht e he) hne]

theorem filter_ofPair_joinTail {tag tag' : Tag} {b b' : Badge} {e : Entry} (hne : tag ≠ tag') (he : ofPair tag b e = true)
    (q : List Entry) : (joinTail e q).filter (ofPair tag' b') = q.filter (ofPair tag' b') :=
  filter_joinTail_of_false (ofPair_false_of_ne he hne) q

/-- Taking PAGEs out of the queue takes no WITHDRAW out. -/
theorem filter_isWithdraw_without_pages {tag : Tag} {b : Badge} {test : Entry → Bool}
    (ht : ∀ e, test e = true → e.pendingPage tag b = true) (q : List Entry) :
    (q.filter (fun e => !test e)).filter (Entry.isWithdraw tag b) = q.filter (Entry.isWithdraw tag b) := by
  rw [List.filter_filter]
  refine List.filter_congr (fun e _ => ?_)
  cases he : test e with
  | false => simp
  | true =>
    have hp := (Bool.and_eq_true_iff.mp (ht e he)).2
    unfold Entry.isPage at hp
    cases hc : e.content <;> simp_all [Entry.isWithdraw]

end Sys2Proof.Proofs.CrewRoster
end

section
/-! SUPPORT. The end of a crew's offer and the hand-back of its calls (R12, R39, R40): what they leave alone, what they leave in
the call, and what they tell where the Send Queue has room. -/

namespace Sys2Proof.Proofs.CrewRoster

open Sys2Proof Sys2Proof.Machine

/-! ## Histories and offerees -/

/-- A history with a new entry holds the last eight (R2). -/
theorem addHistory_eq_lastEight (h : List HistoryEntry) (e : HistoryEntry) : addHistory h e = lastEight (h ++ [e]) := by
  unfold addHistory lastEight Config.historyLimit
  split
  · rename_i h8
    rw [List.drop_append_of_le_length (by rw [List.length_append, List.length_singleton]; omega), List.length_append,
      List.length_singleton]
  · rename_i h8
    rw [List.length_append, List.length_singleton, Nat.sub_eq_zero_of_le (by omega), List.drop_zero]

/-- The offeree set is empty without a crew when it was that crew alone. -/
theorem filter_offerees_isEmpty {l : List CrewSlotNo} {k : CrewSlotNo} (hn : l.Nodup) (hk : k ∈ l) :
    (l.filter (· ≠ k)).isEmpty = true ↔ l = [k] := by
  constructor
  · intro h
    have hall : ∀ x ∈ l, x = k := by simpa using h
    have hr : l = List.replicate l.length k := List.eq_replicate_of_mem hall
    have h1 : l.length ≤ 1 := by
      rw [hr] at hn
      exact List.nodup_replicate.mp hn
    have h0 := List.length_pos_of_mem hk
    rw [hr, show l.length = 1 by omega]
    rfl
  · rintro rfl
    simp

/-! ## The end of an offer whose pager is told -/

/-- An offer that ends is lost, and what follows can only lose more. -/
theorem spares_of_loss {s a t : State} {i : CallSlotNo} (h : Spares s a) (h' : OffersOnly a t i)
    (lost : ∀ c d, s.call i = some c → a.call i = some d → d.offerees ≠ c.offerees) : Spares s t := by
  obtain ⟨rest, calls, crews, port, horn, line, attention⟩ := h
  obtain ⟨rest', port', horn', line', attention', generation', others', none', loses', crews'⟩ := h'
  refine ⟨rest.trans rest', fun j hj => ?_, crews.trans crews', port'.trans port, horn'.trans horn, line'.trans line,
    attention'.trans attention⟩
  obtain ⟨hg, hnone, hsome⟩ := calls j hj
  by_cases e : j = i
  · subst e
    refine ⟨(generation' j).trans hg, fun hn => none' (hnone hn), fun c hc => ?_⟩
    obtain ⟨hempty, d, hd, hsub, -, heq⟩ := hsome c hc
    obtain ⟨f, hf, hsub', heq'⟩ := loses' d hd
    refine ⟨fun ho => absurd rfl (lost c c hc (hempty ho)), f, hf, hsub'.trans hsub, fun ho => ?_, by rw [heq', heq]⟩
    exact absurd (hsub.eq_of_length_le (by simpa [ho] using hsub'.length_le)) (lost c d hc hd)
  · rw [others' j e]
    exact ⟨(generation' j).trans hg, hnone, hsome⟩

/-- A crew that leaves an offeree set leaves it. -/
theorem not_mem_offerees_endOffer {s : State} {i : CallSlotNo} {k : CrewSlotNo} {o : Option OfferOutcome} {d : Call}
    (hd : (s.endOffer i k o).call i = some d) : k ∉ d.offerees := by
  cases hc : s.call i with
  | none => simp [State.endOffer, call_modCall, hc] at hd
  | some c =>
    rw [call_endOffer_self hc] at hd
    obtain rfl := Option.some.inj hd
    simp

theorem spares_endOffer {s : State} {i : CallSlotNo} {k : CrewSlotNo} {c : Call} (hc : s.call i = some c) (hk : k ∈ c.offerees)
    (o : Option OfferOutcome) : Spares s (s.endOffer i k o) :=
  (offersOnly_endOffer s i k o).spares fun c' d hc' hd he => by
    obtain rfl : c' = c := Option.some.inj (hc'.symm.trans hc)
    exact not_mem_offerees_endOffer hd (he ▸ hk)

/-- What follows the end of an offer in the telling of its pager is a change of the Send Queue. -/
theorem DisplacementClosed.endOfferTelling {R : State → State → Prop} (h : DisplacementClosed R) {s : State} {i : CallSlotNo}
    {k : CrewSlotNo} {c : Call} {cr : Crew} (hc : s.call i = some c) (hcr : s.crew k = some cr) (o : OfferOutcome)
    (reason : WithdrawReason) : R (s.endOffer i k (some o)) (s.endOfferTelling i k o reason) := by
  simp only [State.endOfferTelling, hc, hcr]
  split
  · exact h.setEntries _ _
  · exact h.trans (h.setEntries _ _) (h.place _ _)

theorem crew_endOffer (s : State) (i : CallSlotNo) (k l : CrewSlotNo) (o : Option OfferOutcome) :
    (s.endOffer i k o).crew l = if l = k then (s.crew k).map (fun c => { c with offer := none }) else s.crew l := by
  simp only [State.endOffer, crew_modCrew, crew_modCall]

/-- A pager is told by the change of its pair's entries alone (R12). -/
theorem endOfferTelling_of_room {s : State} {i : CallSlotNo} {k : CrewSlotNo} {c : Call} {cr : Crew} (hc : s.call i = some c)
    (hcr : s.crew k = some cr) (hroom : s.queue.entries.length < 24) (o : OfferOutcome) (reason : WithdrawReason) :
    ∃ q, s.endOfferTelling i k o reason = (s.endOffer i k (some o)).setEntries q ∧ q.length ≤ s.queue.entries.length + 1 ∧
      PagerTold s (s.setEntries q) i cr.badge c.cls reason ∧
      ∀ tag b, tag ≠ s.tagOf i → PairKept s (s.setEntries q) tag b := by
  have hlen : (s.queue.entries.filter (fun e => !e.pendingPage (s.tagOf i) cr.badge)).length ≤ s.queue.entries.length :=
    List.length_filter_le _ _
  have hunseen : (s.hasPendingPage (s.tagOf i) cr.badge && !s.hasPageInFlight (s.tagOf i) cr.badge) = true ↔
      (∃ e ∈ s.queue.entries, e.pendingPage (s.tagOf i) cr.badge = true) ∧
        ∀ e ∈ s.queue.entries, e.inFlight = true → e.isPage (s.tagOf i) cr.badge = false := by
    simp [State.hasPendingPage, State.hasPageInFlight]
  simp only [State.endOfferTelling, hc, hcr, State.removePendingPage, endOffer_queue]
  split
  · rename_i hu
    obtain ⟨hpending, hflight⟩ := hunseen.mp hu
    refine ⟨_, rfl, Nat.le_succ_of_le hlen, ⟨fun e he => ?_, fun _ _ => ?_, fun hp => ?_⟩, fun tag b hne => ?_⟩
    · simpa using (List.mem_filter.mp he).2
    · exact filter_isWithdraw_without_pages (fun _ => id) _
    · rcases hp with hp | ⟨e, he, hf, hpage⟩
      · obtain ⟨e, he, hpage⟩ := hpending
        rw [hp e he] at hpage
        cases hpage
      · rw [hflight e he hf] at hpage
        cases hpage
    · exact filter_ofPair_other hne.symm (fun _ => ofPair_of_pendingPage) _
  · rename_i hu
    have hplace := place_of_room
      (s := (s.endOffer i k (some o)).setEntries (s.queue.entries.filter (fun e => !e.pendingPage (s.tagOf i) cr.badge)))
      (Entry.fresh (.withdraw { tag := s.tagOf i, badge := cr.badge, reason := reason, cls := c.cls }) c.cls)
      (Nat.lt_of_le_of_lt hlen hroom)
    have hwithdraw := isWithdraw_fresh (tag := s.tagOf i) (b := cr.badge) reason c.cls
    refine ⟨_, hplace, by simpa using hlen, ⟨fun e he => ?_, fun hp hf => absurd (hunseen.mpr ⟨hp, hf⟩) hu, fun _ => ⟨?_, ?_⟩⟩,
      fun tag b hne => ?_⟩
    · rcases mem_joinTail.mp he with rfl | he
      · rfl
      · simpa using (List.mem_filter.mp he).2
    · exact mem_joinTail.mpr (.inl rfl)
    · refine (length_filter_joinTail_of_true hwithdraw _).trans (congrArg (fun q : List Entry => q.length + 1) ?_)
      exact filter_isWithdraw_without_pages (fun _ => id) _
    · exact (filter_ofPair_joinTail hne.symm (ofPair_of_isWithdraw hwithdraw) _).trans
        (filter_ofPair_other hne.symm (fun _ => ofPair_of_pendingPage) _)

/-! ## The withdrawal of a crew's offer (R39) -/

/-- The outstanding offer of a crew agrees with the offeree sets (R43). -/
def OfferAgrees (s : State) (k : CrewSlotNo) (b : Crew) : Prop :=
  ∀ t, b.offer = some t ↔ ∃ c, t = s.tagOf t.slot ∧ s.call t.slot = some c ∧ k ∈ c.offerees

/-- The slot of the call that a crew is offered. -/
def offerSlot (b : Crew) : List CallSlotNo := (b.offer.map (·.slot)).toList

/-- What the withdrawal of a crew's offer leaves, and what it does besides where the Send Queue has room. -/
structure OfferWithdrawn (k : CrewSlotNo) (b : Crew) (s t : State) : Prop where
  spares : Spares s t
  crew : t.crew k = some { b with offer := none }
  gone : ∀ i c, t.call i = some c → k ∉ c.offerees
  joins : JoinsOffered s t

/-- What the withdrawal does where the Send Queue has room. -/
structure WithdrawnWithRoom (k : CrewSlotNo) (b : Crew) (s t : State) : Prop where
  length : t.queue.entries.length ≤ s.queue.entries.length + 1
  others : ∀ j, j ∉ offerSlot b → t.call j = s.call j
  pairs : ∀ tag b', tag.slot ∉ offerSlot b → PairKept s t tag b'
  offer : ∀ i c, b.offer = some (s.tagOf i) → s.call i = some c → c.hold = none → c.offerees.Nodup →
    (∃ d, t.call i = some d ∧ LosesOffer k c.triesUsed c d) ∧ PagerTold s t i b.badge c.cls .handover ∧
      (c.offerees = [k] → i ∈ t.disp.list)

theorem withdrawForHandover_of_none {s : State} {k : CrewSlotNo} {b : Crew} (hb : s.crew k = some b) (ho : b.offer = none) :
    s.withdrawForHandover k = s := by
  simp only [State.withdrawForHandover, hb, Option.bind_some, ho]

theorem withdrawForHandover_of_some {s : State} {k : CrewSlotNo} {b : Crew} {tag : Tag} (hb : s.crew k = some b)
    (ho : b.offer = some tag) :
    s.withdrawForHandover k = (s.endOfferTelling tag.slot k .withdrawn .handover).waitIfNoOfferee tag.slot := by
  simp only [State.withdrawForHandover, hb, Option.bind_some, ho, State.withdrawOffer]

theorem offerWithdrawn {s : State} {k : CrewSlotNo} {b : Crew} (hb : s.crew k = some b) (hagree : OfferAgrees s k b) :
    OfferWithdrawn k b s (s.withdrawForHandover k) := by
  cases ho : b.offer with
  | none =>
    rw [withdrawForHandover_of_none hb ho]
    refine ⟨.refl s, ?_, fun i c hc hk => ?_, displacementClosed_joinsOffered.refl s⟩
    · rw [hb, ← ho]
    · have hoff := (hagree (s.tagOf i)).mpr ⟨c, rfl, hc, hk⟩
      rw [ho] at hoff
      cases hoff
  | some tag =>
    obtain ⟨c, -, hc, hk⟩ := (hagree tag).mp ho
    rw [withdrawForHandover_of_some hb ho]
    have hend := spares_endOffer hc hk (some .withdrawn)
    have htell := displacementClosed_spares.endOfferTelling hc hb .withdrawn .handover
    have hjoin := displacementClosed_joinsOffered.endOfferTelling hc hb .withdrawn .handover
    have hwait := offersOnly_waitIfNoOfferee (s.endOfferTelling tag.slot k .withdrawn .handover) tag.slot
    have hlast : OffersShrink (s.endOfferTelling tag.slot k .withdrawn .handover) _ :=
      (sameOffers_waitIfNoOfferee _ tag.slot).shrink
    have hspares : Spares s _ := spares_of_loss (hend.trans htell) hwait fun c' d hc' hd he => by
      obtain rfl : c' = c := Option.some.inj (hc'.symm.trans hc)
      obtain ⟨d', hd', hsub⟩ := hjoin.shrink tag.slot d hd
      exact not_mem_offerees_endOffer hd' (hsub k (he ▸ hk))
    refine ⟨hspares, ?_, fun i d hd hkd => ?_, offersShrink_of_spares hspares, ?_⟩
    · have hself : (s.endOffer tag.slot k (some .withdrawn)).crew k = some { b with offer := none } := by
        rw [crew_endOffer, if_pos rfl, hb, Option.map_some]
      obtain ⟨-, -, -, -, -, -, -, -, -, crews⟩ := hwait
      exact crew_same_of_keepsCrews ((crews_of_spares htell).trans crews) id hself rfl
    · obtain ⟨d', hd', hsub⟩ := hjoin.shrink.trans hlast i d hd
      by_cases e : i = tag.slot
      · exact not_mem_offerees_endOffer (e ▸ hd') (hsub k hkd)
      · have hi : s.call i = some d' := by
          simpa [State.endOffer, call_modCall, e] using hd'
        have hoff := (hagree (s.tagOf i)).mpr ⟨d', rfl, hi, hsub k hkd⟩
        rw [ho] at hoff
        exact e (congrArg Tag.slot (Option.some.inj hoff)).symm
    · have hset : HasOffers s tag.slot := ⟨c, hc, List.ne_nil_of_mem hk⟩
      have hshrink := offersShrink_of_spares hend
      exact ((joinsOnly_endOffer s tag.slot k _).trans (hjoin.joins.mono fun _ => hshrink.hasOffers)).trans
        (joinsOnly_waitIfNoOfferee _ hset)

/-- The call whose offer ends, after it has become WAITING if no offeree is left (R39). -/
theorem waitIfNoOfferee_of_loss {s : State} {i : CallSlotNo} {k : CrewSlotNo} {c : Call} (hn : c.offerees.Nodup)
    (hk : k ∈ c.offerees) (hh : c.hold = none)
    (hc : s.call i = some { c with
      offerees := c.offerees.filter (· ≠ k), history := addHistory c.history { crew := k, outcome := .withdrawn } }) :
    (∃ d, (s.waitIfNoOfferee i).call i = some d ∧ LosesOffer k c.triesUsed c d) ∧
      (c.offerees = [k] → i ∈ (s.waitIfNoOfferee i).disp.list) := by
  have hempty := filter_offerees_isEmpty hn hk
  simp only [State.waitIfNoOfferee, hc]
  by_cases e : c.offerees = [k]
  · rw [if_pos (hempty.mpr e)]
    refine ⟨⟨_, by rw [call_becomeWaiting, if_pos rfl, hc, Option.map_some], ?_⟩, fun _ => mem_list_becomeWaiting hc hh⟩
    simp only [LosesOffer, if_pos e, allWithdrawn, List.foldl_cons, List.foldl_nil, addHistory_eq_lastEight, stopped,
      Call.stopTimer]
  · rw [if_neg (mt hempty.mp e)]
    refine ⟨⟨_, hc, ?_⟩, fun h => absurd h e⟩
    simp only [LosesOffer, if_neg e, allWithdrawn, List.foldl_cons, List.foldl_nil, addHistory_eq_lastEight]

theorem withdrawnWithRoom {s : State} {k : CrewSlotNo} {b : Crew} (hb : s.crew k = some b) (hagree : OfferAgrees s k b)
    (hroom : s.queue.entries.length < 24) : WithdrawnWithRoom k b s (s.withdrawForHandover k) := by
  cases ho : b.offer with
  | none =>
    rw [withdrawForHandover_of_none hb ho]
    exact ⟨Nat.le_succ _, fun _ _ => rfl, fun _ _ _ => rfl, fun i c hoff => absurd (ho.symm.trans hoff) (by simp)⟩
  | some tag =>
    obtain ⟨c, htag, hc, hk⟩ := (hagree tag).mp ho
    obtain ⟨q, hq, hlen, htold, hpairs⟩ := endOfferTelling_of_room hc hb hroom .withdrawn .handover
    have hslot : offerSlot b = [tag.slot] := by simp [offerSlot, ho]
    have hself := call_endOffer_self (k := k) (o := some .withdrawn) hc
    have hqueue : ((s.endOfferTelling tag.slot k .withdrawn .handover).waitIfNoOfferee tag.slot).queue =
        (s.setEntries q).queue := by
      rw [waitIfNoOfferee_queue, hq]
      simp [State.setEntries]
    rw [withdrawForHandover_of_some hb ho]
    refine ⟨?_, fun j hj => ?_, fun tag' b' ht => ?_, fun i c' hoff hc' hh hn => ?_⟩
    · rw [hqueue]
      exact hlen
    · have hj : j ≠ tag.slot := by simpa [hslot] using hj
      obtain ⟨-, -, -, -, -, -, others, -⟩ :=
        offersOnly_waitIfNoOfferee (s.endOfferTelling tag.slot k .withdrawn .handover) tag.slot
      rw [others j hj, hq]
      simp [State.endOffer, call_modCall, hj]
    · have hne : tag' ≠ s.tagOf tag.slot := fun e => ht (by simp [hslot, e, State.tagOf])
      unfold PairKept
      rw [hqueue]
      exact hpairs tag' b' hne
    · have hi : i = tag.slot := congrArg Tag.slot (Option.some.inj (hoff.symm.trans ho))
      subst hi
      obtain rfl : c' = c := Option.some.inj (hc'.symm.trans hc)
      obtain ⟨hloses, hmem⟩ := waitIfNoOfferee_of_loss hn hk hh ((congrArg (fun u : State => u.call tag.slot) hq).trans hself)
      refine ⟨hloses, pagerTold_congr rfl rfl ?_ htold, hmem⟩
      unfold PairKept
      rw [hqueue]

/-! ## The hand-back of one call (R40) -/

/-- The record of a call as its hand-back by a crew leaves it. -/
def handedBackCall (k : CrewSlotNo) (c : Call) : Call := { c with
  state := .waiting, holder := none, triesUsed := 0, attention := c.attention ||| 0x20, timer := stopped c,
  history := lastEight (c.history ++ [{ crew := k, outcome := .handedBack }]) }

theorem handedBackAs_iff (k : CrewSlotNo) (c d : Call) : HandedBackAs k c d ↔ d = handedBackCall k c := Iff.rfl

/-- The part of a hand-back that reaches the call: its holder goes, it asks for attention, and it becomes WAITING. -/
def returnCall (k : CrewSlotNo) (i : CallSlotNo) (s : State) : State :=
  ((s.modCall i (fun c => { c with
    holder := none, triesUsed := 0, history := addHistory c.history { crew := k, outcome := .handedBack } })).addAttention
      i .handedBack).becomeWaiting i

/-- The part of a hand-back that comes first: the crew's load falls, and its pager is told. -/
def dropAndTell (k : CrewSlotNo) (i : CallSlotNo) (s : State) : State :=
  (s.modCrew k Crew.dropLoad).tellFormerHolder i k .handover

theorem handBack_eq (k : CrewSlotNo) (i : CallSlotNo) (s : State) :
    s.handBack k i = returnCall k i (dropAndTell k i s) := rfl

/-- The blocks and records that the attention of a call does not reach. -/
theorem addAttention_frame (s : State) (i : CallSlotNo) (r : AttentionReason) :
    KeepsRest s (s.addAttention i r) ∧ (s.addAttention i r).port = s.port ∧ (s.addAttention i r).roster = s.roster ∧
      (s.addAttention i r).queue = s.queue ∧ (s.addAttention i r).disp = s.disp ∧
      ∀ j, ((s.addAttention i r).slot j).generation = (s.slot j).generation := by
  have hset (x : CallSlot) (hx : x.generation = (s.slot i).generation) (j : CallSlotNo) :
      ((s.setSlot i x).slot j).generation = (s.slot j).generation := by
    by_cases e : j = i
    · rw [e, slot_setSlot_same, hx]
    · rw [slot_setSlot_other s x e]
  unfold State.addAttention
  split
  · exact ⟨.refl s, rfl, rfl, rfl, rfl, fun _ => rfl⟩
  · split
    · exact ⟨⟨rfl, rfl, rfl, rfl, rfl, rfl, rfl, rfl, rfl, rfl⟩, rfl, rfl, rfl, rfl, hset _ rfl⟩
    · exact ⟨⟨rfl, rfl, rfl, rfl, rfl, rfl, rfl, rfl, rfl, rfl⟩, rfl, rfl, rfl, rfl, hset _ rfl⟩

theorem keepsRest_modCall (s : State) (i : CallSlotNo) (f : Call → Call) : KeepsRest s (s.modCall i f) := by
  unfold State.modCall
  split <;> exact ⟨rfl, rfl, rfl, rfl, rfl, rfl, rfl, rfl, rfl, rfl⟩

theorem keepsRest_modCrew (s : State) (k : CrewSlotNo) (f : Crew → Crew) : KeepsRest s (s.modCrew k f) := by
  unfold State.modCrew
  split <;> exact ⟨rfl, rfl, rfl, rfl, rfl, rfl, rfl, rfl, rfl, rfl⟩

theorem keepsRest_setCrew (s : State) (k : CrewSlotNo) (x : Option Crew) : KeepsRest s (s.setCrew k x) :=
  ⟨rfl, rfl, rfl, rfl, rfl, rfl, rfl, rfl, rfl, rfl⟩

theorem becomeWaiting_roster (s : State) (i : CallSlotNo) : (s.becomeWaiting i).roster = s.roster := by
  unfold State.becomeWaiting
  simp only
  split
  · split
    · exact modCall_roster _ _ _
    · exact modCall_roster _ _ _
  · exact modCall_roster _ _ _

theorem call_returnCall (k : CrewSlotNo) (i j : CallSlotNo) (s : State) :
    (returnCall k i s).call j = if j = i then (s.call i).map (handedBackCall k) else s.call j := by
  unfold returnCall
  rw [call_becomeWaiting, call_addAttention, call_addAttention, call_modCall, call_modCall]
  by_cases e : j = i
  · simp only [e, if_true, Option.map_map]
    congr 1
    funext c
    simp only [Function.comp_apply, handedBackCall, Call.stopTimer, stopped, addHistory_eq_lastEight, AttentionReason.bit]
  · simp only [e, if_false]

theorem returnCall_frame (k : CrewSlotNo) (i : CallSlotNo) (s : State) :
    KeepsRest s (returnCall k i s) ∧ (returnCall k i s).port = s.port ∧ (returnCall k i s).roster = s.roster ∧
      (returnCall k i s).queue = s.queue ∧ ∀ j, ((returnCall k i s).slot j).generation = (s.slot j).generation := by
  unfold returnCall
  generalize hm : s.modCall i _ = m
  obtain ⟨rest, port, roster, queue, -, generation⟩ := addAttention_frame m i .handedBack
  obtain ⟨rest', port', -, -, -, generation', -⟩ := offersOnly_becomeWaiting (m.addAttention i .handedBack) i
  subst hm
  exact ⟨((keepsRest_modCall s i _).trans rest).trans rest', port'.trans (port.trans (modCall_port s i _)),
    (becomeWaiting_roster _ i).trans (roster.trans (modCall_roster s i _)),
    (becomeWaiting_queue _ i).trans (queue.trans (modCall_queue s i _)),
    fun j => (generation' j).trans ((generation j).trans (generation_modCall s i j _))⟩

theorem joinsOnly_addAttention {set : CallSlotNo → Prop} (s : State) (i : CallSlotNo) (r : AttentionReason) :
    JoinsOnly set s (s.addAttention i r) := by
  obtain ⟨-, -, -, -, disp, -⟩ := addAttention_frame s i r
  refine .of_same ?_ (by rw [disp])
  funext j
  unfold State.bandOf
  rw [call_addAttention]
  by_cases e : j = i
  · subst e
    cases s.call j <;> simp
  · simp only [if_neg e]

theorem joinsOnly_returnCall {set : CallSlotNo → Prop} (k : CrewSlotNo) {i : CallSlotNo} (s : State) (hi : set i) :
    JoinsOnly set s (returnCall k i s) := by
  unfold returnCall
  refine ((joinsOnly_modCall s i _ ?_).trans (joinsOnly_addAttention _ i _)).trans (joinsOnly_becomeWaiting _ hi)
  exact fun _ => rfl

theorem mem_list_returnCall (k : CrewSlotNo) {i : CallSlotNo} {s : State} {c : Call} (hc : s.call i = some c)
    (hh : c.hold = none) : i ∈ (returnCall k i s).disp.list := by
  unfold returnCall
  refine mem_list_becomeWaiting (c := { c with
    holder := none, triesUsed := 0, history := addHistory c.history { crew := k, outcome := .handedBack }
    attention := c.attention ||| AttentionReason.handedBack.bit }) ?_ hh
  rw [call_addAttention, if_pos rfl, call_modCall, if_pos rfl, hc, Option.map_some, Option.map_some]

@[simp] theorem dropLoad_badge (b : Crew) : b.dropLoad.badge = b.badge := by
  unfold Crew.dropLoad
  split <;> rfl

@[simp] theorem dropLoad_offer (b : Crew) : b.dropLoad.offer = b.offer := by
  unfold Crew.dropLoad
  split <;> rfl

/-- A crew that loses a number of its calls (R44, R45). -/
theorem dropLoad_iterate (b : Crew) (n : Nat) (hn : n ≤ b.load) :
    Crew.dropLoad^[n] b = { b with load := b.load - n, idle := if n ≠ 0 ∧ b.load = n then 0 else b.idle } := by
  induction n with
  | zero => simp
  | succ n ih =>
    rw [Function.iterate_succ_apply', ih (by omega)]
    unfold Crew.dropLoad
    by_cases e : b.load = n + 1
    · simp [e]
    · have h1 : b.load - n ≠ 1 := by omega
      have h2 : b.load ≠ n := by omega
      have h3 : b.load - n - 1 = b.load - (n + 1) := by omega
      simp [e, h1, h2, h3]

/-- A former holder's pager is told by the change of its pair's entries alone (R40; log 10). -/
theorem tellFormerHolder_of_room {s : State} {i : CallSlotNo} {k : CrewSlotNo} {c : Call} {cr : Crew} (hc : s.call i = some c)
    (hcr : s.crew k = some cr) (hroom : s.queue.entries.length < 24) (reason : WithdrawReason) :
    ∃ q, s.tellFormerHolder i k reason = s.setEntries q ∧ q.length ≤ s.queue.entries.length + 1 ∧
      FormerHolderTold s (s.setEntries q) i cr.badge c.cls reason ∧
      ∀ tag b, tag ≠ s.tagOf i → PairKept s (s.setEntries q) tag b := by
  have hassigned : s.hasAssignedPage (s.tagOf i) cr.badge = true ↔
      ∃ e ∈ s.queue.entries, e.pendingPage (s.tagOf i) cr.badge = true ∧ e.isAssigned = true := by
    simp [State.hasAssignedPage]
  simp only [State.tellFormerHolder, hcr]
  split
  · rename_i ha
    have htest : ∀ e : Entry, (e.pendingPage (s.tagOf i) cr.badge && e.isAssigned) = true →
        e.pendingPage (s.tagOf i) cr.badge = true := fun e he => (Bool.and_eq_true_iff.mp he).1
    refine ⟨_, rfl, Nat.le_succ_of_le (List.length_filter_le _ _), ⟨fun _ => ⟨fun e he hp => ?_, ?_⟩, fun hn => ?_⟩,
      fun tag b hne => ?_⟩
    · simpa [hp] using (List.mem_filter.mp he).2
    · exact filter_isWithdraw_without_pages htest _
    · obtain ⟨e, he, hp, hm⟩ := hassigned.mp ha
      rw [hn e he hp] at hm
      cases hm
    · exact filter_ofPair_other hne.symm (fun e he => ofPair_of_pendingPage (htest e he)) _
  · rename_i ha
    have hwithdraw := isWithdraw_fresh (tag := s.tagOf i) (b := cr.badge) reason c.cls
    simp only [State.tellHolder, hc, hcr]
    refine ⟨_, place_of_room _ hroom, by simp, ⟨fun hp => absurd (hassigned.mpr hp) ha, fun _ => ⟨?_, ?_⟩⟩,
      fun tag b hne => ?_⟩
    · exact mem_joinTail.mpr (.inl rfl)
    · exact length_filter_joinTail_of_true hwithdraw _
    · exact filter_ofPair_joinTail hne.symm (ofPair_of_isWithdraw hwithdraw) _

theorem dropAndTell_frame {k : CrewSlotNo} {b : Crew} {s : State} (i : CallSlotNo) (hb : s.crew k = some b)
    (ho : b.offer = none) :
    KeepsRest s (dropAndTell k i s) ∧ (dropAndTell k i s).port = s.port ∧
      KeepsCalls s (dropAndTell k i s) (fun _ => False) ∧ KeepsCrews s (dropAndTell k i s) (· = k) ∧
      (dropAndTell k i s).crew k = some b.dropLoad ∧ JoinsOffered s (dropAndTell k i s) := by
  have htell : Spares (s.modCrew k Crew.dropLoad) (dropAndTell k i s) := displacementClosed_spares.tellFormerHolder _ i k _
  have hself : (s.modCrew k Crew.dropLoad).crew k = some b.dropLoad := by rw [crew_modCrew, if_pos rfl, hb, Option.map_some]
  refine ⟨(keepsRest_modCrew s k _).trans (rest_of_spares htell), (port_of_spares htell).trans (modCrew_port s k _),
    fun j hj => ?_, fun l hl => ?_, crew_same_of_keepsCrews (crews_of_spares htell) id hself ((dropLoad_offer b).trans ho),
    (joinsOffered_modCrew s k _).trans (displacementClosed_joinsOffered.tellFormerHolder _ i k _)⟩
  · have hcalls := calls_of_spares htell j hj
    rw [call_modCrew, slot_modCrew] at hcalls
    exact hcalls
  · have hcrews := crews_of_spares htell l id
    rw [crew_modCrew, if_neg hl] at hcrews
    exact hcrews

theorem dropAndTell_of_room {k : CrewSlotNo} {b : Crew} {i : CallSlotNo} {c : Call} {s : State} (hb : s.crew k = some b)
    (hc : s.call i = some c) (hroom : s.queue.entries.length < 24) :
    (∀ j, (dropAndTell k i s).call j = s.call j) ∧
      (dropAndTell k i s).queue.entries.length ≤ s.queue.entries.length + 1 ∧
      FormerHolderTold s (dropAndTell k i s) i b.badge c.cls .handover ∧
      ∀ tag b', tag ≠ s.tagOf i → PairKept s (dropAndTell k i s) tag b' := by
  have hcrew : (s.modCrew k Crew.dropLoad).crew k = some b.dropLoad := by rw [crew_modCrew, if_pos rfl, hb, Option.map_some]
  have hqueue := modCrew_queue s k Crew.dropLoad
  have htag : (s.modCrew k Crew.dropLoad).tagOf i = s.tagOf i := by simp [State.tagOf]
  have hpair (tag : Tag) (b' : Badge) : PairKept s (s.modCrew k Crew.dropLoad) tag b' := by
    unfold PairKept
    rw [hqueue]
  obtain ⟨q, hq, hlen, htold, hpairs⟩ :=
    tellFormerHolder_of_room ((call_modCrew s k _ i).trans hc) hcrew (hqueue ▸ hroom) .handover
  unfold dropAndTell
  rw [hq]
  refine ⟨call_modCrew s k _, hqueue ▸ hlen, ?_, fun tag b' hne => ?_⟩
  · exact dropLoad_badge b ▸ formerHolderTold_congr htag.symm (hpair _ _).symm rfl htold
  · exact (hpair tag b').trans (hpairs tag b' (htag ▸ hne))

theorem offersShrink_returnCall (k : CrewSlotNo) (i : CallSlotNo) (s : State) : OffersShrink s (returnCall k i s) := by
  intro j d hd
  rw [call_returnCall] at hd
  split at hd
  · rename_i e
    subst e
    obtain ⟨c, hc, rfl⟩ := Option.map_eq_some_iff.mp hd
    exact ⟨c, hc, fun _ => id⟩
  · exact ⟨d, hd, fun _ => id⟩

/-! ## The hand-back of a crew's calls -/

/-- What the hand-back of a list of calls does where the Send Queue has room. -/
structure HandedBackWithRoom (k : CrewSlotNo) (b : Crew) (slots : List CallSlotNo) (s t : State) : Prop where
  others : ∀ j, j ∉ slots → t.call j = s.call j
  length : t.queue.entries.length ≤ s.queue.entries.length + slots.length
  pairs : ∀ tag b', tag.slot ∉ slots → PairKept s t tag b'
  told : ∀ i ∈ slots, ∀ c, s.call i = some c → FormerHolderTold s t i b.badge c.cls .handover

/-- What the hand-back of a list of calls by a crew without an offer does. -/
structure HandsBack (k : CrewSlotNo) (b : Crew) (slots : List CallSlotNo) (s t : State) : Prop where
  rest : KeepsRest s t
  port : t.port = s.port
  generation : ∀ j, (t.slot j).generation = (s.slot j).generation
  calls : KeepsCalls s t (· ∈ slots)
  crews : KeepsCrews s t (· = k)
  crew : t.crew k = some (Crew.dropLoad^[slots.length] b)
  shrink : OffersShrink s t
  record : ∀ i ∈ slots, ∀ c, s.call i = some c → c.offerees = [] →
    t.call i = some (handedBackCall k c) ∧ (c.hold = none → i ∈ t.disp.list)
  joins : JoinsOnly (fun i => i ∈ slots ∨ HasOffers s i) s t
  room : s.queue.entries.length + slots.length ≤ 24 → HandedBackWithRoom k b slots s t

theorem HandsBack.tagOf {k : CrewSlotNo} {b : Crew} {slots : List CallSlotNo} {s t : State} (h : HandsBack k b slots s t)
    (j : CallSlotNo) : t.tagOf j = s.tagOf j := by
  simp only [State.tagOf, h.generation]

theorem handsBack_nil {k : CrewSlotNo} {b : Crew} {s : State} (hb : s.crew k = some b) : HandsBack k b [] s s where
  rest := .refl s
  port := rfl
  generation _ := rfl
  calls := .refl s _
  crews := .refl s _
  crew := hb
  shrink := .refl s
  record _ hi := absurd hi List.not_mem_nil
  joins := .refl _ s
  room _ := ⟨fun _ _ => rfl, Nat.le_refl _, fun _ _ _ => rfl, fun _ hi => absurd hi List.not_mem_nil⟩

theorem handedBackWithRoom_one {k : CrewSlotNo} {b : Crew} {i : CallSlotNo} {c : Call} {s : State} (hb : s.crew k = some b)
    (hc : s.call i = some c) (hroom : s.queue.entries.length < 24) : HandedBackWithRoom k b [i] s (s.handBack k i) := by
  rw [handBack_eq]
  obtain ⟨hcalls, hlen, htold, hpairs⟩ := dropAndTell_of_room hb hc hroom
  obtain ⟨-, -, -, queue, -⟩ := returnCall_frame k i (dropAndTell k i s)
  have hkeep (tag : Tag) (b' : Badge) : PairKept (dropAndTell k i s) (returnCall k i (dropAndTell k i s)) tag b' := by
    unfold PairKept
    rw [queue]
  refine ⟨fun j hj => ?_, by rw [queue]; exact hlen, fun tag b' ht => ?_, fun j hj c' hc' => ?_⟩
  · rw [call_returnCall, if_neg (by simpa using hj), hcalls]
  · exact (hpairs tag b' (fun e => ht (by simp [e, State.tagOf]))).trans (hkeep tag b')
  · obtain rfl : j = i := by simpa using hj
    obtain rfl : c' = c := Option.some.inj (hc'.symm.trans hc)
    exact formerHolderTold_congr rfl rfl (hkeep _ _) htold

theorem handsBack_one {k : CrewSlotNo} {b : Crew} {i : CallSlotNo} {c : Call} {s : State} (hb : s.crew k = some b)
    (ho : b.offer = none) (hc : s.call i = some c) : HandsBack k b [i] s (s.handBack k i) := by
  have hroom := handedBackWithRoom_one hb hc
  rw [handBack_eq] at hroom ⊢
  obtain ⟨rest, port, calls, crews, crew, hjoins⟩ := dropAndTell_frame i hb ho
  generalize dropAndTell k i s = u at *
  obtain ⟨rest', port', roster, -, generation⟩ := returnCall_frame k i u
  have hcrews (l : CrewSlotNo) : (returnCall k i u).crew l = u.crew l := by simp only [State.crew, roster]
  refine ⟨rest.trans rest', port'.trans port, fun j => (generation j).trans (generation_of_keepsCalls calls id), fun j hj => ?_,
    fun l hl => ?_, (hcrews k).trans crew, hjoins.shrink.trans (offersShrink_returnCall k i u), fun j hj c' hc' ho' => ?_,
    (hjoins.joins.mono fun _ => .inr).trans (joinsOnly_returnCall k u (.inl (List.mem_singleton_self i))), fun hr => ?_⟩
  · rw [generation, call_returnCall, if_neg (by simpa using hj)]
    exact calls j id
  · rw [hcrews]
    exact crews l hl
  · obtain rfl : j = i := by simpa using hj
    have hu := call_same_of_keepsCalls calls id hc' ho'
    exact ⟨by rw [call_returnCall, if_pos rfl, hu, Option.map_some], mem_list_returnCall k hu⟩
  · exact hroom (by rw [List.length_singleton] at hr; omega)

theorem HandsBack.cons {k : CrewSlotNo} {b : Crew} {i : CallSlotNo} {slots : List CallSlotNo} {s t u : State}
    (h : HandsBack k b [i] s t) (h' : HandsBack k b.dropLoad slots t u) (hi : i ∉ slots) : HandsBack k b (i :: slots) s u := by
  have hone : ∀ j ∈ slots, j ∉ [i] := fun j hj e => hi (List.mem_singleton.mp e ▸ hj)
  refine ⟨h.rest.trans h'.rest, h'.port.trans h.port, fun j => (h'.generation j).trans (h.generation j), ?_,
    h.crews.trans h'.crews, ?_, h.shrink.trans h'.shrink, fun j hj c hc ho => ?_, ?_, fun hr => ?_⟩
  · exact (h.calls.mono fun j hj => List.mem_cons.mpr (.inl (List.mem_singleton.mp hj))).trans
      (h'.calls.mono fun j hj => List.mem_cons_of_mem _ hj)
  · rw [h'.crew, List.length_cons, Function.iterate_succ_apply]
  · rcases List.mem_cons.mp hj with rfl | hj
    · obtain ⟨hcall, hlist⟩ := h.record j (List.mem_singleton_self j) c hc ho
      exact ⟨call_same_of_keepsCalls h'.calls hi hcall ho, fun hh => h'.joins.keeps j (hlist hh)⟩
    · exact h'.record j hj c (call_same_of_keepsCalls h.calls (hone j hj) hc ho) ho
  · refine (h.joins.mono ?_).trans (h'.joins.mono ?_)
    · exact fun j hj => hj.imp_left fun hm => List.mem_cons.mpr (.inl (List.mem_singleton.mp hm))
    · exact fun j hj => hj.imp (List.mem_cons_of_mem _) h.shrink.hasOffers
  · rw [List.length_cons] at hr
    have r := h.room (by rw [List.length_singleton]; omega)
    have hlen := r.length
    rw [List.length_singleton] at hlen
    have r' := h'.room (by omega)
    have hlen' := r'.length
    refine ⟨fun j hj => ?_, by rw [List.length_cons]; omega, fun tag b' ht => ?_, fun j hj c hc => ?_⟩
    · rw [List.mem_cons, not_or] at hj
      rw [r'.others j hj.2, r.others j (by simpa using hj.1)]
    · rw [List.mem_cons, not_or] at ht
      exact (r.pairs tag b' (by simpa using ht.1)).trans (r'.pairs tag b' ht.2)
    · rcases List.mem_cons.mp hj with rfl | hj
      · exact formerHolderTold_congr rfl rfl (r'.pairs (s.tagOf j) b.badge hi) (r.told j (List.mem_singleton_self j) c hc)
      · have htold := r'.told j hj c ((r.others j (hone j hj)).trans hc)
        have hpair : PairKept s t (t.tagOf j) b.dropLoad.badge := r.pairs _ _ (hone j hj)
        exact dropLoad_badge b ▸ formerHolderTold_congr (h.tagOf j).symm hpair.symm rfl htold

/-- The calls of a list are handed back one after another. -/
theorem handsBack_all {k : CrewSlotNo} (slots : List CallSlotNo) (hn : slots.Nodup) {b : Crew} {s : State}
    (hb : s.crew k = some b) (ho : b.offer = none) (hc : ∀ i ∈ slots, ∃ c, s.call i = some c ∧ c.offerees = []) :
    HandsBack k b slots s (slots.foldl (fun s i => s.handBack k i) s) := by
  induction slots generalizing b s with
  | nil => exact handsBack_nil hb
  | cons i slots ih =>
    obtain ⟨hi, hn⟩ := List.nodup_cons.mp hn
    obtain ⟨c, hci, -⟩ := hc i List.mem_cons_self
    have h := handsBack_one hb ho hci
    refine h.cons (ih hn h.crew ((dropLoad_offer b).trans ho) fun j hj => ?_) hi
    obtain ⟨d, hd, hdo⟩ := hc j (List.mem_cons_of_mem _ hj)
    exact ⟨d, call_same_of_keepsCalls h.calls (fun e => hi (List.mem_singleton.mp e ▸ hj)) hd hdo, hdo⟩

end Sys2Proof.Proofs.CrewRoster
end

section
/-! SUPPORT. SET DUTY and REMOVE CREW (R35, R38): a crew that goes OFF, a crew that is removed, and the statement about both. -/

namespace Sys2Proof.Proofs.CrewRoster

open Sys2Proof Sys2Proof.Machine

/-! ## What the laws say of calls -/

theorem offered_of_offeree {c : Call} (h : CallOk c) {k : CrewSlotNo} (hk : k ∈ c.offerees) : c.state = .offered := by
  obtain ⟨hoff, -⟩ := h
  by_contra hs
  exact List.ne_nil_of_mem hk (hoff.mpr hs)

theorem no_offerees_of_accepted {c : Call} (h : CallOk c) (hs : c.state = .accepted) : c.offerees = [] := by
  obtain ⟨hoff, -⟩ := h
  exact hoff.mpr (by simp [hs])

theorem no_holder_of_offered {c : Call} (h : CallOk c) (hs : c.state = .offered) : c.holder = none := by
  obtain ⟨-, -, -, hholder, -⟩ := h
  simpa [hs] using hholder

theorem callOk_of_binding {s : State} (h : BindingOk s) {i : CallSlotNo} {c : Call} (hc : s.call i = some c) : CallOk c :=
  (h.1 i c hc).1

theorem load_of_binding {s : State} (h : BindingOk s) {k : CrewSlotNo} {cr : Crew} (hcr : s.crew k = some cr) :
    cr.load = (s.heldCalls k).length := (h.2 k cr hcr).2

theorem offerAgrees_of_binding {s : State} (h : BindingOk s) {k : CrewSlotNo} {cr : Crew} (hcr : s.crew k = some cr) :
    OfferAgrees s k cr := (h.2 k cr hcr).1

/-- A call of the dispatch list is WAITING (R69). -/
theorem waiting_of_mem_list {s : State} (hd : DispatchOk s) {i : CallSlotNo} {c : Call} (hm : i ∈ s.disp.list)
    (hc : s.call i = some c) : c.state = .waiting := by
  obtain ⟨-, hlist, -⟩ := hd
  obtain ⟨c', hc', hs, -⟩ := (hlist i).mp hm
  obtain rfl : c' = c := Option.some.inj (hc'.symm.trans hc)
  exact hs

/-- A call of the dispatch list is WAITING, so a call with offers is not in it. -/
theorem not_mem_list_of_hasOffers {s : State} (h : BindingOk s) (hd : DispatchOk s) {i : CallSlotNo} (hi : HasOffers s i) :
    i ∉ s.disp.list := by
  intro hm
  obtain ⟨c, hc, hne⟩ := hi
  obtain ⟨k, hk⟩ := List.exists_mem_of_ne_nil _ hne
  have hs := offered_of_offeree (callOk_of_binding h hc) hk
  rw [waiting_of_mem_list hd hm hc] at hs
  cases hs

/-- A call that joined the dispatch list in an event stands at the tail of its band, but for those that joined after it. -/
theorem joins_of_joinsOnly {set : CallSlotNo → Prop} {s t : State} (h : JoinsOnly set s t)
    (hset : DispatchOk s → ∀ j, set j → j ∉ s.disp.list) {i : CallSlotNo} (hi : set i) (hm : i ∈ t.disp.list) : Joins s t i := by
  refine ⟨hm, fun hd => ?_⟩
  obtain ⟨-, -, hbands⟩ := id hd
  have hold : LastInBand s.bandOf (· ∉ s.disp.list) s.disp.list :=
    hbands.imp_of_mem fun hx _ hband => ⟨hband, fun hn => absurd hx hn⟩
  have hlast := h.last _ (hset hd) hold
  obtain ⟨before, after, hsplit⟩ := List.append_of_mem hm
  rw [hsplit] at hlast
  obtain ⟨-, hcons, hcross⟩ := List.pairwise_append.mp hlast
  obtain ⟨hafter, -⟩ := List.pairwise_cons.mp hcons
  refine ⟨before, after, hsplit, fun j hj => ?_, fun j hj => ?_⟩
  · rw [h.band]
    exact (hcross j hj i List.mem_cons_self).1
  · by_cases hmem : j ∈ s.disp.list
    · rw [h.band]
      exact .inl ((hafter j hj).2 (hset hd i hi) (not_not.mpr hmem))
    · exact .inr hmem

/-! ## The calls that a crew holds -/

theorem mem_acceptedCalls {s : State} {k : CrewSlotNo} {i : CallSlotNo} :
    i ∈ s.acceptedCalls k ↔ ∃ c, s.call i = some c ∧ c.holder = some k ∧ c.state = .accepted := by
  unfold State.acceptedCalls
  rw [List.mem_filter]
  cases hc : s.call i <;> simp [callSlots]

theorem acceptedCalls_nodup (s : State) (k : CrewSlotNo) : (s.acceptedCalls k).Nodup := (List.nodup_finRange 64).filter _

/-- The withdrawal of offers reaches no ACCEPTED call, and leaves none behind. -/
theorem acceptedCalls_of_keepsCalls {s t : State} (hok : ∀ i c, s.call i = some c → CallOk c)
    (h : KeepsCalls s t (fun _ => False)) (k : CrewSlotNo) : t.acceptedCalls k = s.acceptedCalls k := by
  unfold State.acceptedCalls
  refine List.filter_congr fun i _ => ?_
  cases hc : s.call i with
  | none => rw [call_free_of_keepsCalls h id hc]
  | some c =>
    by_cases ho : c.offerees = []
    · rw [call_same_of_keepsCalls h id hc ho]
    · obtain ⟨d, hd, -, -, hfields⟩ := call_loss_of_keepsCalls h id hc
      obtain ⟨l, hl⟩ := List.exists_mem_of_ne_nil _ ho
      have hno := no_holder_of_offered (hok i c hc) (offered_of_offeree (hok i c hc) hl)
      have hno' : d.holder = none := by rw [hfields]; exact hno
      simp [hd, hno, hno']

/-- The ACCEPTED calls that a crew holds are among its load (R44). -/
theorem length_acceptedCalls_le (s : State) (k : CrewSlotNo) : (s.acceptedCalls k).length ≤ (s.heldCalls k).length := by
  unfold State.acceptedCalls State.heldCalls
  rw [← List.countP_eq_length_filter, ← List.countP_eq_length_filter]
  refine List.countP_mono_left fun i _ h => ?_
  cases hc : s.call i with
  | none => simp [hc] at h
  | some c =>
    simp only [hc, Bool.and_eq_true] at h
    exact h.1

theorem slot_eq_of_call {s t : State} {j : CallSlotNo} (hg : (t.slot j).generation = (s.slot j).generation)
    (hc : t.call j = s.call j) : t.slot j = s.slot j := by
  unfold State.call at hc
  cases ht : t.slot j
  cases hs : s.slot j
  simp_all

theorem length_offerSlot_le (b : Crew) : (offerSlot b).length ≤ 1 := by
  unfold offerSlot
  cases b.offer <;> simp

theorem mem_offerSlot {s : State} {b : Crew} {i : CallSlotNo} (h : b.offer = some (s.tagOf i)) : i ∈ offerSlot b := by
  simp [offerSlot, h, State.tagOf]

/-- The slot of a crew's offer holds a call that is offered to it. -/
theorem offered_of_mem_offerSlot {s : State} {k : CrewSlotNo} {b : Crew} (h : OfferAgrees s k b) {i : CallSlotNo}
    (hi : i ∈ offerSlot b) : ∃ c, s.call i = some c ∧ k ∈ c.offerees := by
  obtain ⟨tag, htag, rfl⟩ : ∃ tag, b.offer = some tag ∧ tag.slot = i := by simpa [offerSlot] using hi
  obtain ⟨c, -, hc, hk⟩ := (h tag).mp htag
  exact ⟨c, hc, hk⟩

/-! ## A crew goes OFF -/

/-- The record of a crew that has gone OFF, before its offer and its calls are dealt with. -/
def offDuty (cr : Crew) (staged : Option Duty) : Crew := { cr with duty := .off, staged := staged }

/-- A crew that is written is not seen at the calls. -/
theorem keepsCalls_of_setCrew {s t : State} {k : CrewSlotNo} {x : Option Crew} {except : CallSlotNo → Prop}
    (h : KeepsCalls (s.setCrew k x) t except) : KeepsCalls s t except := h

theorem joinsOffered_of_setCrew {s t : State} {k : CrewSlotNo} {x : Option Crew} (h : JoinsOffered (s.setCrew k x) t) :
    JoinsOffered s t :=
  ⟨h.shrink, ⟨h.joins.band, h.joins.keeps, h.joins.last⟩⟩

/-- The states on the way of a crew that goes OFF: before the event, after its offer is withdrawn, after its calls are handed
back, and after the end of the event. -/
structure GoingOff (k : CrewSlotNo) (cr : Crew) (staged : Option Duty) (s v w t : State) : Prop where
  binding : BindingOk s
  crew : s.crew k = some cr
  withdrawn : OfferWithdrawn k (offDuty cr staged) (s.setCrew k (some (offDuty cr staged))) v
  room : s.queue.entries.length < 24 → WithdrawnWithRoom k (offDuty cr staged) (s.setCrew k (some (offDuty cr staged))) v
  back : HandsBack k { offDuty cr staged with offer := none } (s.acceptedCalls k) v w
  settled : t = settle s [] w

theorem goingOff {s : State} {k : CrewSlotNo} {cr : Crew} (hbind : BindingOk s) (hcr : s.crew k = some cr)
    (staged : Option Duty) :
    ∃ v, GoingOff k cr staged s v ((s.modCrew k (fun c => { c with staged := staged })).goOff k)
      (settle s [] ((s.modCrew k (fun c => { c with staged := staged })).goOff k)) := by
  have hwrite : (s.modCrew k (fun c => { c with staged := staged })).modCrew k (fun c => { c with duty := .off }) =
      s.setCrew k (some (offDuty cr staged)) := by
    rw [modCrew_of_some hcr, modCrew_of_some (crew_setCrew_same s k _)]
    simp [State.setCrew, offDuty]
  have hself := crew_setCrew_same s k (some (offDuty cr staged))
  have hagree : OfferAgrees (s.setCrew k (some (offDuty cr staged))) k (offDuty cr staged) :=
    (hbind.2 k cr hcr).1
  have hgone := offerWithdrawn hself hagree
  have hkeep : KeepsCalls s ((s.setCrew k (some (offDuty cr staged))).withdrawForHandover k) (fun _ => False) :=
    keepsCalls_of_setCrew (calls_of_spares hgone.spares)
  have hcalls := acceptedCalls_of_keepsCalls (fun _ _ => callOk_of_binding hbind) hkeep k
  refine ⟨(s.setCrew k (some (offDuty cr staged))).withdrawForHandover k, hbind, hcr, hgone,
    fun hr => withdrawnWithRoom hself hagree hr, ?_, rfl⟩
  simp only [State.goOff, hwrite, hcalls]
  refine handsBack_all _ (acceptedCalls_nodup s k) hgone.crew rfl fun i hi => ?_
  obtain ⟨c, hc, -, hs⟩ := mem_acceptedCalls.mp hi
  have ho := no_offerees_of_accepted (callOk_of_binding hbind hc) hs
  exact ⟨c, call_same_of_keepsCalls hkeep id hc ho, ho⟩

namespace GoingOff

variable {k : CrewSlotNo} {cr : Crew} {staged : Option Duty} {s v w t : State} (h : GoingOff k cr staged s v w t)
include h

theorem callOk {i : CallSlotNo} {c : Call} (hc : s.call i = some c) : CallOk c :=
  callOk_of_binding h.binding hc

theorem spares_end : Spares w t := h.settled ▸ spares_settle s [] w

theorem joinsOffered_end : JoinsOffered w t := h.settled ▸ displacementClosed_joinsOffered.settle s [] w

theorem keepsCalls_withdrawn : KeepsCalls s v (fun _ => False) :=
  keepsCalls_of_setCrew (calls_of_spares h.withdrawn.spares)

theorem keepsCrews_withdrawn : KeepsCrews s v (· = k) := by
  intro l hl
  have hl' := crews_of_spares h.withdrawn.spares l id
  rw [crew_setCrew_other s _ hl] at hl'
  exact hl'

theorem generation_end (j : CallSlotNo) : (t.slot j).generation = (s.slot j).generation :=
  ((generation_of_keepsCalls (calls_of_spares h.spares_end) id).trans (h.back.generation j)).trans
    (generation_of_keepsCalls h.keepsCalls_withdrawn id)

theorem keepsRest : KeepsRest s t :=
  (((keepsRest_setCrew s k _).trans (rest_of_spares h.withdrawn.spares)).trans h.back.rest).trans (rest_of_spares h.spares_end)

theorem port : t.port = s.port :=
  ((port_of_spares h.spares_end).trans h.back.port).trans ((port_of_spares h.withdrawn.spares).trans (setCrew_port s k _))

theorem keepsCrews : KeepsCrews s t (· = k) :=
  (h.keepsCrews_withdrawn.trans h.back.crews).trans ((crews_of_spares h.spares_end).mono fun _ => False.elim)

/-- The calls that are handed back are those that the statement excepts. -/
theorem keepsCalls : KeepsCalls s t (fun i => ∃ c, s.call i = some c ∧ c.holder = some k ∧ c.state = .accepted) :=
  ((h.keepsCalls_withdrawn.mono fun _ => False.elim).trans (h.back.calls.mono fun _ => mem_acceptedCalls.mp)).trans
    ((calls_of_spares h.spares_end).mono fun _ => False.elim)

theorem crew_end : t.crew k = some { cr with
    duty := .off, staged := staged, offer := none, load := cr.load - (s.acceptedCalls k).length,
    idle := if (s.acceptedCalls k).length ≠ 0 ∧ cr.load = (s.acceptedCalls k).length then 0 else cr.idle } := by
  have hload : (s.acceptedCalls k).length ≤ cr.load := by
    rw [load_of_binding h.binding h.crew]
    exact length_acceptedCalls_le s k
  have hw := h.back.crew.trans (congrArg some (dropLoad_iterate { offDuty cr staged with offer := none } _ hload))
  exact crew_same_of_keepsCrews (crews_of_spares h.spares_end) id hw rfl

theorem no_offer_end (i : CallSlotNo) (c : Call) (hc : t.call i = some c) : k ∉ c.offerees := by
  obtain ⟨d, hd, hsub⟩ := h.back.shrink.trans h.joinsOffered_end.shrink i c hc
  exact fun hk => h.withdrawn.gone i d hd (hsub k hk)

/-- Only calls that were offered or handed back have joined the dispatch list. -/
theorem joinsOnly : JoinsOnly (fun i => i ∈ s.acceptedCalls k ∨ HasOffers s i) s t := by
  obtain ⟨hshrink, hfirst⟩ := joinsOffered_of_setCrew h.withdrawn.joins
  refine ((hfirst.mono fun _ => .inr).trans (h.back.joins.mono ?_)).trans (h.joinsOffered_end.joins.mono ?_)
  · exact fun j hj => hj.imp_right hshrink.hasOffers
  · exact fun j hj => .inr (hshrink.hasOffers (h.back.shrink.hasOffers hj))

theorem joins_end {i : CallSlotNo} (hi : i ∈ s.acceptedCalls k ∨ HasOffers s i) (hm : i ∈ t.disp.list) : Joins s t i := by
  refine joins_of_joinsOnly h.joinsOnly (fun hd j hj => ?_) hi hm
  rcases hj with hj | hj
  · obtain ⟨c, hc, -, hs⟩ := mem_acceptedCalls.mp hj
    intro hmem
    rw [waiting_of_mem_list hd hmem hc] at hs
    cases hs
  · exact not_mem_list_of_hasOffers h.binding hd hj

theorem accepted_withdrawn {i : CallSlotNo} {c : Call} (hc : s.call i = some c) (hs : c.state = .accepted) :
    v.call i = some c :=
  call_same_of_keepsCalls h.keepsCalls_withdrawn id hc (no_offerees_of_accepted (h.callOk hc) hs)

theorem handed_back {i : CallSlotNo} {c : Call} (hc : s.call i = some c) (hk : c.holder = some k) (hs : c.state = .accepted) :
    t.call i = some (handedBackCall k c) ∧ (c.hold = none → Joins s t i) := by
  have hi : i ∈ s.acceptedCalls k := mem_acceptedCalls.mpr ⟨c, hc, hk, hs⟩
  have ho := no_offerees_of_accepted (h.callOk hc) hs
  obtain ⟨hw, hlist⟩ := h.back.record i hi c (h.accepted_withdrawn hc hs) ho
  exact ⟨call_same_of_keepsCalls (calls_of_spares h.spares_end) id hw ho,
    fun hh => h.joins_end (.inl hi) (h.joinsOffered_end.joins.keeps i (hlist hh))⟩

theorem not_accepted_of_offeree {i : CallSlotNo} {c : Call} (hc : s.call i = some c) (hk : k ∈ c.offerees) :
    i ∉ s.acceptedCalls k := by
  intro hi
  obtain ⟨c', hc', -, hs⟩ := mem_acceptedCalls.mp hi
  obtain rfl : c' = c := Option.some.inj (hc'.symm.trans hc)
  rw [offered_of_offeree (h.callOk hc) hk] at hs
  cases hs

theorem offerAgrees : OfferAgrees s k (offDuty cr staged) := (h.binding.2 k cr h.crew).1

theorem offered_of_offer {i : CallSlotNo} {c : Call} (ho : cr.offer = some (s.tagOf i)) (hc : s.call i = some c) :
    k ∈ c.offerees := by
  obtain ⟨c', -, hc', hk⟩ := (h.offerAgrees (s.tagOf i)).mp ho
  obtain rfl : c' = c := Option.some.inj (hc'.symm.trans hc)
  exact hk

/-- No call gets another origin before the end of the event. -/
theorem origin_back (j : CallSlotNo) (d : Call) (hd : w.call j = some d) : ∃ c, s.call j = some c ∧ d.origin = c.origin := by
  have hkeep := (h.keepsCalls_withdrawn.mono fun _ => False.elim).trans h.back.calls
  by_cases hj : j ∈ s.acceptedCalls k
  · obtain ⟨c, hc, -, hs⟩ := mem_acceptedCalls.mp hj
    obtain ⟨hw, -⟩ := h.back.record j hj c (h.accepted_withdrawn hc hs) (no_offerees_of_accepted (h.callOk hc) hs)
    obtain rfl := Option.some.inj (hd.symm.trans hw)
    exact ⟨c, hc, rfl⟩
  · cases hc : s.call j with
    | none =>
      rw [call_free_of_keepsCalls hkeep hj hc] at hd
      cases hd
    | some c =>
      obtain ⟨d', hd', -, -, hfields⟩ := call_loss_of_keepsCalls hkeep hj hc
      obtain rfl := Option.some.inj (hd.symm.trans hd')
      exact ⟨c, rfl, by rw [hfields]⟩

/-- Where the Send Queue has room for a WITHDRAW and a LAMP to each call that the event reaches, its end sends lamps alone. -/
theorem settle_with_room (hr : s.queue.entries.length + 2 * ((s.acceptedCalls k).length + 1) ≤ 24) :
    WithdrawnWithRoom k (offDuty cr staged) (s.setCrew k (some (offDuty cr staged))) v ∧
      HandedBackWithRoom k { offDuty cr staged with offer := none } (s.acceptedCalls k) v w ∧ LampsOnly w t ∧
      ∀ p ∈ changedPoints s w, LampQueued t p := by
  have hfirst := h.room (by omega)
  have hvlen : v.queue.entries.length ≤ s.queue.entries.length + 1 := hfirst.length
  have hback := h.back.room (by omega)
  have hwlen := hback.length
  have hcard : (changedPoints s w).toFinset.card ≤ (offerSlot (offDuty cr staged) ++ s.acceptedCalls k).length := by
    refine card_changedPoints_le _ (fun j hj => ?_) h.origin_back
    rw [List.mem_append, not_or] at hj
    rw [slot_eq_of_call ((h.back.generation j).trans (generation_of_keepsCalls h.keepsCalls_withdrawn id))
      ((hback.others j hj.2).trans (hfirst.others j hj.1))]
  have hone := length_offerSlot_le (offDuty cr staged)
  rw [List.length_append] at hcard
  have hend := settle_of_room (before := s) (after := w) (by omega)
  rw [← h.settled] at hend
  exact ⟨hfirst, hback, hend⟩

theorem offer_with_room (hr : s.queue.entries.length + 2 * ((s.acceptedCalls k).length + 1) ≤ 24) {i : CallSlotNo} {c : Call}
    (ho : cr.offer = some (s.tagOf i)) (hc : s.call i = some c) :
    ∃ d, t.call i = some d ∧ LosesOffer k c.triesUsed c d ∧ ShowsItsLoss s t i k c ∧
      PagerTold s t i cr.badge c.cls .handover := by
  obtain ⟨hfirst, hback, hlamps, hqueued⟩ := h.settle_with_room hr
  have hk := h.offered_of_offer ho hc
  have hstate := offered_of_offeree (h.callOk hc) hk
  obtain ⟨-, hnodup, hhold, -⟩ := h.callOk hc
  have hi := h.not_accepted_of_offeree hc hk
  obtain ⟨⟨d, hd, hloses⟩, htold, hlist⟩ := hfirst.offer i c ho hc (hhold hstate) hnodup
  have hw : w.call i = some d := (hback.others i hi).trans hd
  refine ⟨d, (hlamps.call i).trans hw, hloses, fun he => ⟨?_, fun p hp => ?_⟩, ?_⟩
  · exact h.joins_end (.inr ⟨c, hc, List.ne_nil_of_mem hk⟩) (h.joinsOffered_end.joins.keeps i (h.back.joins.keeps i (hlist he)))
  · have hwaits : d.state = .waiting := by rw [hloses]; exact if_pos he
    exact hqueued p (mem_changedPoints hc hw (by simp [hstate]) (by simp [hwaits, hstate]) hp)
  · exact pagerTold_congr rfl rfl ((hback.pairs (s.tagOf i) cr.badge hi).trans (hlamps.pairKept _ _)) htold

theorem hand_back_with_room (hr : s.queue.entries.length + 2 * ((s.acceptedCalls k).length + 1) ≤ 24) {i : CallSlotNo}
    {c : Call} (hc : s.call i = some c) (hk : c.holder = some k) (hs : c.state = .accepted) :
    FormerHolderTold s t i cr.badge c.cls .handover ∧ PointTold t c := by
  obtain ⟨hfirst, hback, hlamps, hqueued⟩ := h.settle_with_room hr
  have hi : i ∈ s.acceptedCalls k := mem_acceptedCalls.mpr ⟨c, hc, hk, hs⟩
  have hv := h.accepted_withdrawn hc hs
  have hslot : i ∉ offerSlot (offDuty cr staged) := by
    intro hm
    obtain ⟨c', hc', hk'⟩ := offered_of_mem_offerSlot h.offerAgrees hm
    exact h.not_accepted_of_offeree hc' hk' hi
  have htag : s.tagOf i = v.tagOf i := by simp only [State.tagOf, generation_of_keepsCalls h.keepsCalls_withdrawn id]
  obtain ⟨hw, -⟩ := h.back.record i hi c hv (no_offerees_of_accepted (h.callOk hc) hs)
  refine ⟨?_, fun p hp => hqueued p (mem_changedPoints hc hw (by simp [hs]) (by simp [handedBackCall, hs]) hp)⟩
  have hpair : PairKept s v (v.tagOf i) cr.badge := hfirst.pairs (v.tagOf i) cr.badge hslot
  exact formerHolderTold_congr htag hpair.symm (hlamps.pairKept _ _) (hback.told i hi c hv)

/-- A crew goes OFF by R38 to R40. -/
theorem goesOff : GoesOff s t k cr staged :=
  ⟨⟨_, rfl, h.crew_end⟩,
    fun _ c hc hk hs =>
      ⟨handedBackCall k c, (h.handed_back hc hk hs).1, (handedBackAs_iff k c _).mpr rfl, (h.handed_back hc hk hs).2⟩,
    h.no_offer_end, h.keepsCalls, h.keepsCrews,
    fun hr => ⟨fun _ _ ho hc => h.offer_with_room hr ho hc, fun _ _ hc hk hs => h.hand_back_with_room hr hc hk hs⟩⟩

end GoingOff

/-- A change of the port alone is not seen. -/
theorem goesOff_complete {s t : State} {k : CrewSlotNo} {cr : Crew} {staged : Option Duty} (h : GoesOff s t k cr staged)
    (r : ResultCode) (answer : List Byte) : GoesOff s (t.complete r answer) k cr staged := h

end Sys2Proof.Proofs.CrewRoster
end

section
/-! SUPPORT. REMOVE CREW (R35), and the statement about it and SET DUTY. -/

namespace Sys2Proof.Proofs.CrewRoster

open Sys2Proof Sys2Proof.Machine

/-! ## A crew is forgotten in every history (R35) -/

/-- The blocks and records that a change of calls, slot after slot, leaves alone. -/
theorem foldl_modCall_frame (f : Call → Call) (slots : List CallSlotNo) (s : State) :
    KeepsRest s (slots.foldl (fun s i => s.modCall i f) s) ∧ (slots.foldl (fun s i => s.modCall i f) s).port = s.port ∧
      (slots.foldl (fun s i => s.modCall i f) s).roster = s.roster ∧ (slots.foldl (fun s i => s.modCall i f) s).disp = s.disp ∧
      (slots.foldl (fun s i => s.modCall i f) s).queue = s.queue ∧
      ∀ j, ((slots.foldl (fun s i => s.modCall i f) s).slot j).generation = (s.slot j).generation := by
  induction slots generalizing s with
  | nil => exact ⟨.refl s, rfl, rfl, rfl, rfl, fun _ => rfl⟩
  | cons i slots ih =>
    obtain ⟨rest, port, roster, disp, queue, generation⟩ := ih (s.modCall i f)
    exact ⟨(keepsRest_modCall s i f).trans rest, port.trans (modCall_port s i f), roster.trans (modCall_roster s i f),
      disp.trans (modCall_disp s i f), queue.trans (modCall_queue s i f),
      fun j => (generation j).trans (generation_modCall s i j f)⟩

/-- A change of calls, slot after slot, reaches each call of the slots once. -/
theorem call_foldl_modCall (f : Call → Call) (slots : List CallSlotNo) (hn : slots.Nodup) (s : State) (j : CallSlotNo) :
    (slots.foldl (fun s i => s.modCall i f) s).call j = if j ∈ slots then (s.call j).map f else s.call j := by
  induction slots generalizing s with
  | nil => rfl
  | cons i slots ih =>
    obtain ⟨hi, hn⟩ := List.nodup_cons.mp hn
    rw [List.foldl_cons, ih hn, call_modCall]
    by_cases e : j = i
    · subst e
      simp [hi]
    · simp [e]

theorem call_forgetCrew (s : State) (k : CrewSlotNo) (j : CallSlotNo) :
    (s.forgetCrew k).call j = (s.call j).map (Call.forgetCrew k) :=
  (call_foldl_modCall (Call.forgetCrew k) callSlots (List.nodup_finRange 64) s j).trans (if_pos (List.mem_finRange j))

theorem forgetCrew_frame (s : State) (k : CrewSlotNo) :
    KeepsRest s (s.forgetCrew k) ∧ (s.forgetCrew k).port = s.port ∧ (s.forgetCrew k).roster = s.roster ∧
      (s.forgetCrew k).disp = s.disp ∧ (s.forgetCrew k).queue = s.queue ∧
      ∀ j, ((s.forgetCrew k).slot j).generation = (s.slot j).generation :=
  foldl_modCall_frame (Call.forgetCrew k) callSlots s

/-- What the lamps show of a slot has nothing of a history. -/
theorem lampView_forgetCrew {x y : CallSlot} {k : CrewSlotNo} (hg : y.generation = x.generation)
    (hc : y.call = x.call.map (Call.forgetCrew k)) : lampView y = lampView x := by
  unfold lampView
  rw [hc, hg]
  cases x.call <;> rfl

/-! ## A crew is removed -/

/-- The states on the way of a crew without load that is removed: before the event, after its offer is withdrawn, after it is
forgotten and its slot is unoccupied, and after the end of the event. -/
structure Removing (k : CrewSlotNo) (cr : Crew) (s v w t : State) : Prop where
  binding : BindingOk s
  crew : s.crew k = some cr
  withdrawn : OfferWithdrawn k cr s v
  room : s.queue.entries.length < 24 → WithdrawnWithRoom k cr s v
  removed : w = (v.forgetCrew k).setCrew k none
  settled : t = settle s [] w

theorem removing {s : State} {k : CrewSlotNo} {cr : Crew} (hbind : BindingOk s) (hcr : s.crew k = some cr) :
    Removing k cr s (s.withdrawForHandover k) (((s.withdrawForHandover k).forgetCrew k).setCrew k none)
      (settle s [] (((s.withdrawForHandover k).forgetCrew k).setCrew k none)) :=
  ⟨hbind, hcr, offerWithdrawn hcr (offerAgrees_of_binding hbind hcr),
    withdrawnWithRoom hcr (offerAgrees_of_binding hbind hcr), rfl, rfl⟩

namespace Removing

variable {k : CrewSlotNo} {cr : Crew} {s v w t : State} (h : Removing k cr s v w t)
include h

theorem callOk {i : CallSlotNo} {c : Call} (hc : s.call i = some c) : CallOk c :=
  callOk_of_binding h.binding hc

theorem spares_end : Spares w t := h.settled ▸ spares_settle s [] w

theorem joinsOffered_end : JoinsOffered w t := h.settled ▸ displacementClosed_joinsOffered.settle s [] w

theorem frame_removed : KeepsRest v w ∧ w.port = v.port ∧ w.disp = v.disp ∧ w.queue = v.queue ∧
    (∀ j, (w.slot j).generation = (v.slot j).generation) ∧ ∀ l, l ≠ k → w.crew l = v.crew l := by
  obtain ⟨rest, port, roster, disp, queue, generation⟩ := forgetCrew_frame v k
  have hw := h.removed
  generalize v.forgetCrew k = u at *
  subst hw
  refine ⟨rest.trans (keepsRest_setCrew u k none), port, disp, queue, generation, fun l hl => ?_⟩
  rw [crew_setCrew_other _ _ hl]
  exact congrArg (fun r : Roster => r.crews[l]) roster

theorem call_removed (j : CallSlotNo) : w.call j = (v.call j).map (Call.forgetCrew k) := by
  rw [h.removed, call_setCrew, call_forgetCrew]

theorem generation_end (j : CallSlotNo) : (t.slot j).generation = (s.slot j).generation := by
  obtain ⟨-, -, -, -, generation, -⟩ := h.frame_removed
  exact ((generation_of_keepsCalls (calls_of_spares h.spares_end) id).trans (generation j)).trans
    (generation_of_keepsCalls (calls_of_spares h.withdrawn.spares) id)

theorem keepsRest : KeepsRest s t := by
  obtain ⟨rest, -⟩ := h.frame_removed
  exact ((rest_of_spares h.withdrawn.spares).trans rest).trans (rest_of_spares h.spares_end)

theorem port : t.port = s.port := by
  obtain ⟨-, port, -⟩ := h.frame_removed
  exact ((port_of_spares h.spares_end).trans port).trans (port_of_spares h.withdrawn.spares)

theorem keepsCrews : KeepsCrews s t (· = k) := by
  obtain ⟨-, -, -, -, -, crews⟩ := h.frame_removed
  have hremoved : KeepsCrews v w (· = k) := fun l hl => by
    rw [crews l hl]
    exact KeepsCrews.refl v (· = k) l hl
  exact (((crews_of_spares h.withdrawn.spares).mono fun _ => False.elim).trans hremoved).trans
    ((crews_of_spares h.spares_end).mono fun _ => False.elim)

/-- The slot is unoccupied (R35). -/
theorem crew_end : t.crew k = none := by
  refine crew_vacant_of_keepsCrews (crews_of_spares h.spares_end) id ?_
  rw [h.removed, crew_setCrew_same]

/-- No call offers to the slot and no history names it (R35): what the end of the event displaces enters other crews. -/
theorem named_nowhere : NamedNowhere k t := by
  rw [h.settled]
  refine (displacementClosed_namedNowhere k).settle s [] w fun i d hd => ?_
  rw [h.call_removed] at hd
  obtain ⟨c, hc, rfl⟩ := Option.map_eq_some_iff.mp hd
  exact ⟨h.withdrawn.gone i c hc, fun e he => by simpa using (List.mem_filter.mp he).2⟩

theorem call_end_of_none {i : CallSlotNo} (hc : s.call i = none) : t.call i = none := by
  refine call_free_of_keepsCalls (calls_of_spares h.spares_end) id ?_
  rw [h.call_removed, call_free_of_keepsCalls (calls_of_spares h.withdrawn.spares) id hc, Option.map_none]

/-- A call without offers loses the history entries of the crew and nothing else. -/
theorem call_end_of_no_offers {i : CallSlotNo} {c : Call} (hc : s.call i = some c) (ho : c.offerees = []) :
    t.call i = some (c.forgetCrew k) := by
  refine call_same_of_keepsCalls (calls_of_spares h.spares_end) id ?_ ho
  rw [h.call_removed, call_same_of_keepsCalls (calls_of_spares h.withdrawn.spares) id hc ho, Option.map_some]

/-- A call with offers can besides have lost some, with the fields that go with the loss. -/
theorem call_end {i : CallSlotNo} {c : Call} (hc : s.call i = some c) :
    ∃ d, t.call i = some d ∧ (∀ l ∈ d.offerees, l ∈ c.offerees) ∧ (d.offerees = c.offerees → d = c.forgetCrew k) ∧
      d = { c with
        state := d.state, triesUsed := d.triesUsed, offerees := d.offerees, history := d.history, timer := d.timer } := by
  obtain ⟨d, hd, hsub, hsame, hfields⟩ := call_loss_of_keepsCalls (calls_of_spares h.withdrawn.spares) id hc
  have hw : w.call i = some (d.forgetCrew k) := by rw [h.call_removed, hd, Option.map_some]
  obtain ⟨e, he, hsub', hsame', hfields'⟩ := call_loss_of_keepsCalls (calls_of_spares h.spares_end) id hw
  refine ⟨e, he, fun l hl => hsub.subset (hsub'.subset hl), fun ho => ?_, ?_⟩
  · have hlen : e.offerees.length ≤ d.offerees.length := hsub'.length_le
    have hdc : d.offerees = c.offerees := hsub.eq_of_length_le (ho ▸ hlen)
    rw [hsame' (ho.trans hdc.symm), hsame hdc]
  · rw [hfields', hfields]
    rfl

theorem joinsOnly : JoinsOnly (HasOffers s) s t := by
  have hshrink : OffersShrink s v := h.withdrawn.joins.shrink
  obtain ⟨-, -, disp, -⟩ := h.frame_removed
  have hband : w.bandOf = v.bandOf := by
    funext j
    unfold State.bandOf
    rw [h.call_removed]
    cases v.call j <;> rfl
  have hremoved : JoinsOnly (HasOffers s) v w := .of_same hband (by rw [disp])
  refine (h.withdrawn.joins.joins.trans hremoved).trans (h.joinsOffered_end.joins.mono fun j ⟨d, hd, hne⟩ => ?_)
  rw [h.call_removed] at hd
  obtain ⟨c, hc, rfl⟩ := Option.map_eq_some_iff.mp hd
  exact hshrink.hasOffers ⟨c, hc, hne⟩

theorem origin_removed (j : CallSlotNo) (d : Call) (hd : w.call j = some d) :
    ∃ c, s.call j = some c ∧ d.origin = c.origin := by
  rw [h.call_removed] at hd
  obtain ⟨d', hd', rfl⟩ := Option.map_eq_some_iff.mp hd
  have hkeep := calls_of_spares h.withdrawn.spares
  cases hc : s.call j with
  | none =>
    rw [call_free_of_keepsCalls hkeep id hc] at hd'
    cases hd'
  | some c =>
    obtain ⟨e, he, -, -, hfields⟩ := call_loss_of_keepsCalls hkeep id hc
    obtain rfl := Option.some.inj (hd'.symm.trans he)
    exact ⟨c, rfl, by rw [hfields]; rfl⟩

/-- Where the Send Queue has room for a WITHDRAW and a LAMP, the end of the event sends lamps alone. -/
theorem settle_with_room (hr : s.queue.entries.length + 2 ≤ 24) :
    WithdrawnWithRoom k cr s v ∧ LampsOnly w t ∧ ∀ p ∈ changedPoints s w, LampQueued t p := by
  have hfirst := h.room (by omega)
  have hvlen := hfirst.length
  obtain ⟨-, -, -, queue, generation, -⟩ := h.frame_removed
  have hcard : (changedPoints s w).toFinset.card ≤ (offerSlot cr).length := by
    refine card_changedPoints_le _ (fun j hj => ?_) h.origin_removed
    have hgen := generation_of_keepsCalls (j := j) (calls_of_spares h.withdrawn.spares) id
    refine lampView_forgetCrew (k := k) ((generation j).trans hgen) ?_
    exact (h.call_removed j).trans (by rw [hfirst.others j hj]; rfl)
  have hone := length_offerSlot_le cr
  have hend := settle_of_room (before := s) (after := w) (by rw [queue]; omega)
  rw [← h.settled] at hend
  exact ⟨hfirst, hend⟩

theorem offer_with_room (hr : s.queue.entries.length + 2 ≤ 24) {i : CallSlotNo} {c : Call} (ho : cr.offer = some (s.tagOf i))
    (hc : s.call i = some c) :
    ∃ d, t.call i = some (d.forgetCrew k) ∧ LosesOffer k c.triesUsed c d ∧ ShowsItsLoss s t i k c ∧
      PagerTold s t i cr.badge c.cls .handover := by
  obtain ⟨hfirst, hlamps, hqueued⟩ := h.settle_with_room hr
  obtain ⟨-, -, disp, queue, -⟩ := h.frame_removed
  obtain ⟨c', hc', hk⟩ := offered_of_mem_offerSlot (offerAgrees_of_binding h.binding h.crew) (mem_offerSlot ho)
  obtain rfl : c' = c := Option.some.inj (hc'.symm.trans hc)
  have hstate := offered_of_offeree (h.callOk hc) hk
  obtain ⟨-, hnodup, hhold, -⟩ := h.callOk hc
  obtain ⟨⟨d, hd, hloses⟩, htold, hlist⟩ := hfirst.offer i c' ho hc (hhold hstate) hnodup
  have hw : w.call i = some (d.forgetCrew k) := by rw [h.call_removed, hd, Option.map_some]
  refine ⟨d, (hlamps.call i).trans hw, hloses, fun he => ⟨?_, fun p hp => ?_⟩, ?_⟩
  · refine joins_of_joinsOnly h.joinsOnly (fun hd _ => not_mem_list_of_hasOffers h.binding hd) ?_ ?_
    · exact ⟨c', hc, List.ne_nil_of_mem hk⟩
    · exact h.joinsOffered_end.joins.keeps i (by rw [disp]; exact hlist he)
  · have hwaits : d.state = .waiting := by rw [hloses]; exact if_pos he
    exact hqueued p (mem_changedPoints hc hw (by simp [hstate]) (by simp [Call.forgetCrew, hwaits, hstate]) hp)
  · have hpair : PairKept v w (s.tagOf i) cr.badge := by
      unfold PairKept
      rw [queue]
    exact pagerTold_congr rfl rfl (hpair.trans (hlamps.pairKept _ _)) htold

end Removing

/-! ## SET DUTY and REMOVE CREW as commands -/

theorem readDuty_isSome (n : Nat) : (readDuty n).isSome = decide (n ≤ 1) := by
  unfold readDuty
  split <;> simp_all
  omega

theorem setDutyEffect_of_enrolled {s : State} {k : CrewSlotNo} {cr : Crew} {d : Duty} (hp : s.plan.phase = .closed)
    (hv : badgeValid (word16 (s.arg 0) (s.arg 1)) = true) (he : s.enrolled (word16 (s.arg 0) (s.arg 1)) = some k)
    (hcr : s.crew k = some cr) (hd : readDuty (s.arg 2).toNat = some d) : setDutyEffect s = setDutyTo s d k cr := by
  rw [setDutyEffect, onCrew_of_enrolled _ (fun _ => hp) hv (by rw [hd]; rfl) he hcr]
  simp only [hd]

theorem removeCrewEffect_of_enrolled {s : State} {k : CrewSlotNo} {cr : Crew} (hp : s.plan.phase = .closed)
    (hv : badgeValid (word16 (s.arg 0) (s.arg 1)) = true) (he : s.enrolled (word16 (s.arg 0) (s.arg 1)) = some k)
    (hcr : s.crew k = some cr) :
    removeCrewEffect s =
      if cr.load ≠ 0 then refuseWith s .loaded
      else okWith (((s.withdrawForHandover k).forgetCrew k).setCrew k none) [byteOf k.val] :=
  onCrew_of_enrolled _ (fun _ => hp) hv rfl he hcr

/-- A command that is carried out ends its event and completes (R168). -/
theorem runCommand_okWith {command : HostCommand} {effect : State → CommandEffect} {s u : State} {answer : List Byte}
    (h : CommandWaits command.code s) (he : effect s = okWith u answer) :
    runCommand command effect s = .next ((settle s [] u).complete .ok answer) := by
  rw [runCommand_of_waits h, he]
  rfl

theorem completes_complete {s t : State} (h : t.port = s.port) (r : ResultCode) (answer : List Byte) :
    Completes s (t.complete r answer) r answer := by
  simp only [Completes, complete_port, h]

/-- A staged duty written as it stands changes nothing. -/
theorem modCrew_staged_self {s : State} {k : CrewSlotNo} {cr : Crew} (h : s.crew k = some cr) :
    s.modCrew k (fun c => { c with staged := cr.staged }) = s := by
  rw [modCrew_of_some h]
  change s.setCrew k (some cr) = s
  rw [← h]
  simp [State.setCrew, State.crew]

/-- SET DUTY OFF of a crew ON (R38 to R40). -/
theorem execSetDuty_goesOff {s : State} {k : CrewSlotNo} {cr : Crew} (hbind : BindingOk s) (hw : CommandWaits 0x0F s)
    (hcr : s.crew k = some cr) (hduty : cr.duty = .on) (heffect : setDutyEffect s = setDutyTo s .off k cr) :
    ∃ t, exec .setDuty s = .next t ∧ GoesOff s t k cr cr.staged ∧
      Completes s t .ok [byteOf k.val, 1, flagByte cr.offer.isSome, byteOf (s.acceptedCalls k).length] ∧ KeepsRest s t := by
  have hanswer : setDutyEffect s =
      okWith (s.goOff k) [byteOf k.val, 1, flagByte cr.offer.isSome, byteOf (s.acceptedCalls k).length] := by
    rw [heffect]
    simp only [setDutyTo, hduty, dutyByte]
  obtain ⟨v, h⟩ := goingOff hbind hcr cr.staged
  rw [modCrew_staged_self hcr] at h
  exact ⟨_, runCommand_okWith hw hanswer, goesOff_complete h.goesOff _ _, completes_complete h.port _ _, h.keepsRest⟩

/-- Settles O42: the refusals by R32, a duty that is written, a crew that goes OFF by R38 to R40, and a crew without load that is
removed by R35. -/
theorem setDutyAndRemoveCrew : Obligations.SetDutyAndRemoveCrew := by
  intro s b hbind _ hp hb
  subst hb
  refine ⟨fun hw => ⟨fun h => ?_, fun hv h1 hn => ?_, fun k cr hv he hcr => ⟨fun h => ?_, fun h hduty => ?_, fun h hduty => ?_⟩⟩,
    fun hw => ⟨fun h => ?_, fun hv hn => ?_, fun k cr hv he hcr => ⟨fun hload => ?_, fun hload => ?_⟩⟩⟩
  · refine runCommand_refused hw (onCrew_badField _ (fun _ => hp) (h.imp_right fun h1 => ?_))
    simpa [readDuty_isSome] using h1
  · exact runCommand_refused hw (onCrew_noSuch _ (fun _ => hp) hv (by simpa [readDuty_isSome] using h1) hn)
  · refine runCommand_answered hw ?_ rfl rfl
    rw [setDutyEffect_of_enrolled (d := .on) hp hv he hcr (by rw [h]; rfl)]
    simp only [setDutyTo, modCrew_of_some hcr]
  · refine runCommand_answered hw ?_ rfl rfl
    rw [setDutyEffect_of_enrolled (d := .off) hp hv he hcr (by rw [h]; rfl)]
    simp only [setDutyTo, hduty, dutyByte]
  · exact execSetDuty_goesOff hbind hw hcr hduty (setDutyEffect_of_enrolled hp hv he hcr (by rw [h]; rfl))
  · exact runCommand_refused hw (onCrew_badField _ (fun _ => hp) (.inl h))
  · exact runCommand_refused hw (onCrew_noSuch _ (fun _ => hp) hv rfl hn)
  · exact runCommand_refused hw ((removeCrewEffect_of_enrolled hp hv he hcr).trans (if_pos hload))
  · have h := removing hbind hcr
    refine ⟨_, runCommand_okWith hw ((removeCrewEffect_of_enrolled hp hv he hcr).trans (if_neg (not_not.mpr hload))), h.crew_end,
      h.named_nowhere, fun i c hc => ⟨h.call_end_of_no_offers hc, h.call_end hc⟩, fun hr i c ho hc => h.offer_with_room hr ho hc,
      fun i hc => h.call_end_of_none hc, h.generation_end, completes_complete h.port _ _, h.keepsRest, h.keepsCrews⟩

end Sys2Proof.Proofs.CrewRoster
end
